-- ==== Sys2Proof/Word.lean ====
section
/-! DEFINITION. The one machine word of the CTM-8: a byte on the command port and on the probe links (R179, R195). -/

namespace Sys2Proof

/-- A byte of a frame. Bit 0 is the least significant. -/
abbrev Byte := BitVec 8

end Sys2Proof
end

