-- ==== Sys2Proof/Machine/Bank.lean ====
section
/-! DEFINITION. Banks of a fixed number of like things: eight channels or links, four seats, slots or frequencies. -/

namespace Sys2Proof

/-- Eight things, one for each channel or link 0 to 7. -/
structure Eight (α : Type) where
  a0 : α
  a1 : α
  a2 : α
  a3 : α
  a4 : α
  a5 : α
  a6 : α
  a7 : α
deriving DecidableEq, Repr

/-- Four things: resolver seats, watch slots, or the test frequencies F1 to F4 (F1 is number 0 here). -/
structure Four (α : Type) where
  a0 : α
  a1 : α
  a2 : α
  a3 : α
deriving DecidableEq, Repr

variable {α β : Type}

/-- The thing of number `i`. -/
def Eight.get (v : Eight α) (i : Fin 8) : α :=
  match i with
  | 0 => v.a0 | 1 => v.a1 | 2 => v.a2 | 3 => v.a3
  | 4 => v.a4 | 5 => v.a5 | 6 => v.a6 | 7 => v.a7

/-- The bank with `x` in place `i`. -/
def Eight.set (v : Eight α) (i : Fin 8) (x : α) : Eight α :=
  match i with
  | 0 => { v with a0 := x } | 1 => { v with a1 := x } | 2 => { v with a2 := x } | 3 => { v with a3 := x }
  | 4 => { v with a4 := x } | 5 => { v with a5 := x } | 6 => { v with a6 := x } | 7 => { v with a7 := x }

/-- Every place holds `x`. -/
def Eight.fill (x : α) : Eight α := ⟨x, x, x, x, x, x, x, x⟩

/-- Each place changed by `f`. -/
def Eight.map (f : α → β) (v : Eight α) : Eight β :=
  ⟨f v.a0, f v.a1, f v.a2, f v.a3, f v.a4, f v.a5, f v.a6, f v.a7⟩

/-- The places in order, 0 first. -/
def Eight.toList (v : Eight α) : List α := [v.a0, v.a1, v.a2, v.a3, v.a4, v.a5, v.a6, v.a7]

/-- The numbers of a bank of eight, in order. -/
def eightNumbers : List (Fin 8) := [0, 1, 2, 3, 4, 5, 6, 7]

/-- The thing of number `i`. -/
def Four.get (v : Four α) (i : Fin 4) : α :=
  match i with
  | 0 => v.a0 | 1 => v.a1 | 2 => v.a2 | 3 => v.a3

/-- The bank with `x` in place `i`. -/
def Four.set (v : Four α) (i : Fin 4) (x : α) : Four α :=
  match i with
  | 0 => { v with a0 := x } | 1 => { v with a1 := x } | 2 => { v with a2 := x } | 3 => { v with a3 := x }

/-- Every place holds `x`. -/
def Four.fill (x : α) : Four α := ⟨x, x, x, x⟩

/-- The places in order, 0 first. -/
def Four.toList (v : Four α) : List α := [v.a0, v.a1, v.a2, v.a3]

/-- The numbers of a bank of four, in order. -/
def fourNumbers : List (Fin 4) := [0, 1, 2, 3]

end Sys2Proof
end

