-- ==== Sys2Proof/Syntax.lean ====
section
/-! DEFINITION. The commands: one constructor for each row of spec/opcode_table.json, and their operands.
A request command carries its requester and its fields as the port takes them, before the checks of R181;
numbers are therefore not yet known to lie in their ranges. An event carries the link, channel or seat it comes
from and the bits or bytes that arrive. -/

namespace Sys2Proof.Machine

/-- The role and seat byte of a request (R194): the role code of bits 7–4, the seat of bits 1–0. -/
structure Requester where
  role : Nat
  seat : Fin 4
deriving DecidableEq, Repr

/-- A grid position (introduction, 5.1): row 0–255, column 0–255. -/
structure Pos where
  row : Nat
  col : Nat
deriving DecidableEq, Repr

/-- A tube name (11.1): a selector 00h with a position, 01h with a tube index; any other selector is refused. -/
inductive TubeName where
  | position (p : Pos)
  | index (i : Nat)
  | other (selector : Nat)
deriving DecidableEq, Repr

/-- An entry reference (R144): entry number and issue number. -/
structure EntryRef where
  number : Nat
  issue : Nat
deriving DecidableEq, Repr

/-- Four bounds as a request carries them: signed 16-bit numbers (R16, R51, R68). -/
structure Bounds where
  rowLo : Int
  rowHi : Int
  colLo : Int
  colHi : Int
deriving DecidableEq, Repr

/-- The action of PLAN_REGION (R16). -/
inductive PlanAction where
  | set
  | clear
deriving DecidableEq, Repr

/-- Bytes of a request transfer (R179): those that arrive, and whether the transfer ends with them. -/
structure Transfer where
  bytes : List Byte
  ends : Bool
deriving DecidableEq, Repr

/-- How far one REPORT_TAKE carries the report engine (R101; log 13): to the end of its operation, or through one moment
of it, so that an event that does not come through the engine may follow before the next. -/
inductive TakeExtent where
  | whole
  | moment
deriving DecidableEq, Repr

/-- The nine values of SET_CAMPAIGN (R8), each present or absent. -/
structure CampaignFields where
  length : Option Nat
  plugLimit : Option Nat
  tolerance : Option Nat
  mergeWindow : Option Nat
  growth : Option Nat
  attemptLimit : Option Nat
  overtravel : Option Nat
  holdLimit : Option Nat
  poolLevel : Option Nat
deriving DecidableEq, Repr

/-- A point of a depth curve (R125): phase in tenths of a degree, depth in %TW. -/
structure CurvePoint where
  phase : Nat
  depth : Nat
deriving DecidableEq, Repr

/-- The state set of a channel (section 3.4): which claimable states its seeks take. -/
structure StateSet where
  untested : Bool
  retest : Bool
deriving DecidableEq, Repr

/-- The reload events of a channel (section 3.4). -/
structure ReloadEvents where
  enter : Bool
  progress : Bool
  indication : Bool
  farEnd : Bool
  heartbeat : Bool
deriving DecidableEq, Repr

/-- One flag for each link error kind, in the order of R84: error flags or report enables. -/
structure LinkFlags where
  syncCorrected : Bool
  headerDamaged : Bool
  payloadDamaged : Bool
  length : Bool
  kind : Bool
  source : Bool
  queueOverrun : Bool
  sequence : Bool
deriving DecidableEq, Repr

/-- The fields of CONFIGURE_CHANNEL (R51). Codes of enumerations are as carried (11.1, 11.4); a group whose keep
flag is clear has its values ignored. -/
structure ConfigFields where
  face : Nat
  keep1 : Bool
  keep2 : Bool
  keep3 : Bool
  keep4 : Bool
  keep5 : Bool
  window : Bounds
  keepouts : Eight Bool
  majorAxis : Nat
  startCorner : Nat
  serpentine : Bool
  mix : BitVec 8
  pattern : BitVec 64
  zones : BitVec 16
  states : StateSet
  priority : Nat
  stallTick : Nat
  stallReload : Nat
  reloads : ReloadEvents
deriving DecidableEq, Repr

/-- The nine values of SET_CHANNEL_CAL (R54), each present or absent; rotation and factor by frequency. -/
structure CalFields where
  scale : Option Nat
  rotation : Four (Option Nat)
  factor : Four (Option Nat)
deriving DecidableEq, Repr

end Sys2Proof.Machine

namespace Sys2Proof

open Machine

/-- The commands, in the order of spec/opcode_table.json. A REPORT_TAKE named without an extent is the row's own: the
report handled whole. -/
inductive Instr where
  | powerOn
  | reset
  | resetEnd
  | requestTransferRefused (transfer : Transfer)
  | readTransfer (count : Nat)
  | overrun
  | commandComplete
  | defineTubes (rq : Requester) (row first last step zone : Nat) (planned : Bool)
  | clearLayout (rq : Requester)
  | clearLayoutTube
  | setLandmarks (rq : Requester) (positions : List Nat)
  | setCampaign (rq : Requester) (f : CampaignFields)
  | loadCurve (rq : Requester) (freq threshold : Nat) (points : List CurvePoint)
  | openCampaign (rq : Requester)
  | closeCampaign (rq : Requester)
  | newCampaign (rq : Requester)
  | prepareLayout (rq : Requester)
  | rolloverTube
  | planRegion (rq : Requester) (region : Bounds) (action : Nat)
  | planRegionTube
  | configureChannel (rq : Requester) (ch : Nat) (f : ConfigFields)
  | setChannelCal (rq : Requester) (ch : Nat) (f : CalFields)
  | setKeepout (rq : Requester) (region : Nat) (defined : Bool) (bounds : Bounds)
  | setClearance (rq : Requester) (value : Nat)
  | startChannel (rq : Requester) (ch : Nat)
  | stopChannel (rq : Requester) (ch : Nat)
  | abandon (rq : Requester) (ch : Nat)
  | resume (rq : Requester) (ch : Nat)
  | channelReset (rq : Requester) (ch : Nat)
  | assignTube (rq : Requester) (ch : Nat) (name : TubeName)
  | setLink (rq : Requester) (link policy : Nat) (strict : Bool) (enables : LinkFlags)
  | restartLink (rq : Requester) (link : Nat)
  | interlockClear (rq : Requester)
  | plugTube (rq : Requester) (name : TubeName)
  | unblockTube (rq : Requester) (name : TubeName)
  | submitCall (rq : Requester) (ref : EntryRef) (code depth : Nat)
  | reviewDone (rq : Requester) (name : TubeName) (acknowledge : Bool)
  | takeEntry (rq : Requester) (ref : EntryRef)
  | resolveEntry (rq : Requester) (code depth : Nat)
  | releaseEntry (rq : Requester)
  | requestRetest (rq : Requester) (name : TubeName)
  | readTube (rq : Requester) (name : TubeName)
  | findTube (rq : Requester) (start : Pos) (states : BitVec 10)
  | findTubeVisit
  | readEntry (rq : Requester) (ref : EntryRef)
  | readCensus (rq : Requester)
  | readChannel (rq : Requester) (ch : Nat)
  | readLink (rq : Requester) (link : Nat)
  | readStatus (rq : Requester)
  | setNoticeLevel (rq : Requester) (cls level : Nat)
  | setFloor (rq : Requester) (floor : Nat)
  | takeNotice (rq : Requester)
  | setWatch (rq : Requester) (slot : Nat) (position : Option Pos)
  | headerCheck (link : Fin 8) (bytes : List Byte)
  | frameComplete (link : Fin 8) (bytes : List Byte)
  | dataGapMark (ch : Fin 8)
  | reportTake (extent : TakeExtent := .whole)
  | overtravelMark (ch : Fin 8)
  | messageSent (link : Fin 8)
  | stallExpiry (ch : Fin 8)
  | holdTimerExpiry (seat : Fin 4)
  | interlockAssertion
  | wbholdRise
  | walkerChoice
  | walkerExamine
  | claimRequest
  | syncWordFound (link : Fin 8) (word : BitVec 16)
  | stallTimerTick (ch : Fin 8)
  | wbholdSample (low : Bool)
deriving DecidableEq, Repr

end Sys2Proof
end

