-- ==== Sys2Proof/Config.lean ====
section
/-! DEFINITION. What the part fixes in silicon, and the one value the manual leaves open. -/

namespace Sys2Proof.Config

/-- The greatest number of declared tubes (R5). -/
def tubeLimit : Nat := 32768

/-- The entries of the pool (R142). -/
def poolSize : Nat := 16384

/-- The most entries a tube's list holds (R145). -/
def listLimit : Nat := 12

/-- The most reports a link's queue holds (R84). -/
def queueLimit : Nat := 16

/-- The most messages that wait behind the one being sent (R99). -/
def waitLimit : Nat := 8

/-- The most notices pending (R187). -/
def noticeLimit : Nat := 32

/-- The consecutive opposite samples after which WBHOLD# has changed (R118). -/
def debounceSamples : Nat := 16

/-- The greatest count of examined positions (R65). -/
def examinedLimit : Nat := 4294967295

/-- The cells of the position directory, 256 rows of 256 columns (R1). -/
def gridCells : Nat := 65536

/-- FREE VALUE (log 6). R136 reads the instrument depth from a loaded curve and says that the curve is loaded
whenever the stage is reached (R127). In a state where it is not, which no run reaches, the manual states no
depth: it is this opaque function of the corrected phase, kept in 0–100 by R140 where it is used. -/
opaque depthWithoutCurve : Nat → Nat

end Sys2Proof.Config
end

