-- ==== Sys2Proof/Machine/State.lean ====
section
/-! DEFINITION. Everything the spec gives the part to hold, as plain data, and the state after power-on. -/

namespace Sys2Proof.Machine

/-- Why a step could stop with a fault. No rule of the spec stops the part (INVENTORY.md, Faults), so there is no
constructor: no meaning raises one. -/
inductive Fault where
deriving DecidableEq, Repr

/-- Why a step could be refused. -/
inductive Refusal where
  /-- Raised by an arm of `exec` whose command has no meaning yet, and by nothing else; safe. No arm raises it now. -/
  | notModelled (mnemonic : String)
deriving DecidableEq, Repr

/-! ## Names the blocks share -/

/-- The tube sheet face a channel works from (R46). -/
inductive Face where
  | inlet
  | outlet
deriving DecidableEq, Repr

/-- The campaign phase (R9). -/
inductive Phase where
  | layout
  | active
  | closed
deriving DecidableEq, Repr

/-- The ten tube states, in the order of R22. -/
inductive TubeState where
  | untested
  | claimed
  | inTest
  | tested
  | underReview
  | cleared
  | plugCalled
  | plugged
  | retest
  | blocked
deriving DecidableEq, Repr

/-- The seven channel states, in the order of R42. -/
inductive ChanState where
  | off
  | idle
  | seeking
  | assigned
  | probing
  | stalled
  | halted
deriving DecidableEq, Repr

/-- The entry statuses (R143, R161). -/
inductive EntryStatus where
  | new
  | oneCall
  | disputed
  | resolving
  | final
  | dismissed
deriving DecidableEq, Repr

/-- A call (R162): a code, with a depth for DEPTH. -/
inductive Call where
  | depth (d : Nat)
  | nonQuantifiable
  | geometry
  | noneFound
deriving DecidableEq, Repr

/-- A final outcome (R143). -/
inductive FinalOutcome where
  | depth (d : Nat)
  | nonQuantifiable
deriving DecidableEq, Repr

/-- A landmark (R138): a tube sheet, or support plate S1 to S14. -/
inductive Landmark where
  | tsi
  | support (n : Nat)
  | tso
deriving DecidableEq, Repr

/-- The status codes of R182's second table, in its order. -/
inductive Status where
  | ok | format | unknown | role | phase | range | full | noTube | tubeBusy | state | clearance | interlock
  | lineActive | channelBusy | claimHeld | noClaim | outsideWindow | curveInvalid | curveMissing | landmarks
  | tubes | claimsActive | held | seatBusy | notHolder | callsMissing | truncated | noEntry
deriving DecidableEq, Repr

/-- The request commands, in the order of the permission table of R182. -/
inductive Command where
  | defineTubes | clearLayout | setLandmarks | setCampaign | loadCurve | openCampaign | closeCampaign
  | newCampaign | prepareLayout | planRegion | configureChannel | setChannelCal | setKeepout | setClearance
  | startChannel | stopChannel | abandon | resume | channelReset | assignTube | setLink | restartLink
  | interlockClear | plugTube | unblockTube | submitCall | reviewDone | takeEntry | resolveEntry | releaseEntry
  | requestRetest | readTube | findTube | readEntry | readCensus | readChannel | readLink | readStatus
  | setNoticeLevel | setFloor | takeNotice | setWatch
deriving DecidableEq, Repr

/-- The notice classes, in the order of their numbers (section 10.8.1). -/
inductive NoticeClass where
  | interlock | stall | link | blocked | plugCall | dispute | holdExpired | watch | pool | exhausted
  | campaignComplete
deriving DecidableEq, Repr

/-- The link error kinds, in the order of R84. -/
inductive LinkError where
  | syncCorrected | headerDamaged | payloadDamaged | length | kind | source | queueOverrun | sequence
deriving DecidableEq, Repr

/-- The seven report kinds (R85, R195). -/
inductive ReportKind where
  | enter | progress | indication | farEnd | exit | obstructed | heartbeat
deriving DecidableEq, Repr

/-- The four assignment messages (R45). -/
inductive MessageKind where
  | assign | hold | release | cancel
deriving DecidableEq, Repr

/-- A rectangle of grid positions, bounds clamped to 0–255 (R51, R67, R68). -/
structure Rect where
  rowLo : Nat
  rowHi : Nat
  colLo : Nat
  colHi : Nat
deriving DecidableEq, Repr

/-! ## Tube map -/

/-- A tube record (R2). The tube index is the record's place in `TubeMap.tubes`. -/
structure Tube where
  pos : Pos
  zone : Nat
  state : TubeState
  planned : Bool
  claim : Option (Fin 8)
  passes : Nat
  attempts : Nat
  primaryMark : Bool
  secondaryMark : Bool
  truncated : Bool
  entries : List Nat
  worstFinal : Option Nat
  history : Option Nat
  plugCampaign : Option Nat
deriving DecidableEq, Repr

/-- The nine campaign parameters (R8). -/
structure Params where
  length : Nat
  plugLimit : Nat
  tolerance : Nat
  mergeWindow : Nat
  growth : Nat
  attemptLimit : Nat
  overtravel : Nat
  holdLimit : Nat
  poolLevel : Nat
deriving DecidableEq, Repr

/-- The census (R18): one count for each tube state, the planned count, the planned non-terminal count. -/
structure Census where
  untested : Nat
  claimed : Nat
  inTest : Nat
  tested : Nat
  underReview : Nat
  cleared : Nat
  plugCalled : Nat
  plugged : Nat
  retest : Nat
  blocked : Nat
  planned : Nat
  plannedOpen : Nat
deriving DecidableEq, Repr

/-- What the tube map holds (R1, R2, R7 to R9, R18, R19, R39). `directory` lists only the cells that hold a tube,
by cell number 256 · row + column; `landmarks` is absent while the table is not set. -/
structure TubeMap where
  directory : List (Nat × Option Nat)
  tubes : List Tube
  params : Params
  landmarks : Option (List Nat)
  phase : Phase
  campaign : Nat
  census : Census
  armed : Bool
  watches : Four (Option Pos)
deriving DecidableEq, Repr

/-! ## Indication store -/

/-- The measured fields of an entry, which peak hold replaces together (R143, R148). -/
structure Measured where
  axial : Nat
  extent : Nat
  phase : Nat
  amplitude : Nat
  saturated : Bool
  depth : Nat
  landmark : Landmark
  offset : Int
deriving DecidableEq, Repr

/-- A measurement (R139); `freq` counts F1 as 0. -/
structure Measurement where
  tube : Nat
  pass : Nat
  freq : Fin 4
  measured : Measured
deriving DecidableEq, Repr

/-- An entry in use (R143). `freq` counts F1 as 0. -/
structure Entry where
  tube : Nat
  freq : Fin 4
  measured : Measured
  sightings : Nat
  firstPass : Nat
  status : EntryStatus
  primary : Option Call
  secondary : Option Call
  resolution : Option Call
  outcome : Option FinalOutcome
  reference : Option Nat
  holder : Option (Fin 4)
deriving DecidableEq, Repr

/-- A place of the pool (R142): its issue number, and the entry while it is in use. -/
structure PoolSlot where
  issue : Nat
  content : Option Entry
deriving DecidableEq, Repr

/-- The free list (R142): entries `fresh` to 16,383, which no creation has taken yet, in ascending order from the
head, and after them the returned entries, oldest first. `FreeList.toList` writes it out (log 18). -/
structure FreeList where
  fresh : Nat
  returned : List Nat
deriving DecidableEq, Repr

/-- What the indication store holds (R142, R155). A place that `pool` does not list is free with issue number 0. -/
structure Store where
  pool : List (Nat × PoolSlot)
  free : FreeList
  warnArmed : Bool
deriving DecidableEq, Repr

/-! ## Reduction unit and analysis controller -/

/-- A frequency's reporting threshold, and its depth curve when one is loaded (R125). -/
structure FreqSettings where
  threshold : Nat
  curve : Option (List CurvePoint)
deriving DecidableEq, Repr

/-- A resolver seat (R160, R167): the entry it holds, and the expiry time of its hold timer while that runs. -/
structure Seat where
  held : Option EntryRef
  expiry : Option Nat
deriving DecidableEq, Repr

/-! ## Channel controllers -/

/-- The echo of a claim (R46): what every assignment message carries. -/
structure Echo where
  pos : Pos
  face : Face
  pass : Nat
deriving DecidableEq, Repr

/-- A claim record (R46). -/
structure Claim where
  tube : Nat
  pos : Pos
  face : Face
  pass : Nat
  prior : TubeState
  farEnd : Bool
  dataGap : Bool
deriving DecidableEq, Repr

/-- The major axis of a traversal (R69). -/
inductive Axis where
  | row
  | column
deriving DecidableEq, Repr

/-- The start corner of a traversal (R69). -/
inductive Corner where
  | topLeft
  | topRight
  | bottomLeft
  | bottomRight
deriving DecidableEq, Repr

/-- The stall tick settings (section 3.4). -/
inductive StallTick where
  | tenth
  | one
  | ten
  | sixty
deriving DecidableEq, Repr

/-- A channel's configuration (section 3.4, R51). -/
structure Config where
  face : Face
  window : Rect
  keepouts : Eight Bool
  majorAxis : Axis
  startCorner : Corner
  serpentine : Bool
  mix : BitVec 8
  pattern : BitVec 64
  zones : BitVec 16
  states : StateSet
  priority : Nat
  stallTick : StallTick
  stallReload : Nat
  reloads : ReloadEvents
deriving DecidableEq, Repr

/-- A channel's calibration (R54). -/
structure Calibration where
  scale : Nat
  rotation : Four Nat
  factor : Four Nat
deriving DecidableEq, Repr

/-- The modes of a stall timer (R112). -/
inductive TimerMode where
  | running
  | frozen
  | stopped
deriving DecidableEq, Repr

/-- A stall timer (R112): its mode and count, the tick period of its last load, and when its next tick is due. -/
structure StallTimer where
  mode : TimerMode
  count : Nat
  tick : StallTick
  nextTick : Nat
deriving DecidableEq, Repr

/-- What a channel controller holds (R42), the marks on their way to it (R91, R130; log 5), and the measurement formed
under its claim and not yet handed to the store (R139; log 13). -/
structure Channel where
  state : ChanState
  prior : Option ChanState
  interrupted : Option ChanState
  claim : Option Claim
  config : Config
  cal : Calibration
  timer : StallTimer
  exhausted : Bool
  lastCount : Option Nat
  gapMarks : Nat
  overtravelMarks : Nat
  filing : Option Measurement
deriving DecidableEq, Repr

/-! ## Selection walker -/

/-- A seek in progress (R65). -/
structure Seek where
  chan : Fin 8
  size : Nat
  start : Nat
  index : Nat
  examined : Nat
  renew : Bool
  request : Option Pos
deriving DecidableEq, Repr

/-- What the selection walker holds (R65). An absent cursor is "before first"; an absent region is undefined, and then
holds no bounds (DESIGN CHOICE, log 24). -/
structure Walker where
  cursors : Eight (Option Pos)
  keepouts : Eight (Option Rect)
  clearance : Nat
  waiting : Eight Bool
  seek : Option Seek
deriving DecidableEq, Repr

/-! ## Probe links -/

/-- The receive states (R84). -/
inductive RxState where
  | hunt
  | header
  | payload
  | fault
deriving DecidableEq, Repr

/-- The recovery policies (R84). -/
inductive Policy where
  | auto
  | stop
deriving DecidableEq, Repr

/-- The three checked header fields of a frame in progress (R87). -/
structure FrameHeader where
  source : Nat
  kind : Nat
  length : Nat
deriving DecidableEq, Repr

/-- A queued report (R90). -/
structure Report where
  kind : ReportKind
  payload : List Byte
  chan : Fin 8
deriving DecidableEq, Repr

/-- What a probe link receiver holds (R84). `gathered` are the bytes of the frame in progress since the sync word,
or since the header check once `header` is present. -/
structure Link where
  rx : RxState
  header : Option FrameHeader
  gathered : List Byte
  queue : List Report
  flags : LinkFlags
  errors : Nat
  lastKind : Option ReportKind
  lastSource : Option Nat
  policy : Policy
  strict : Bool
  enables : LinkFlags
deriving DecidableEq, Repr

/-- An assignment message (R45), filled from the claim record when it is decided (R195). -/
structure Message where
  kind : MessageKind
  echo : Echo
deriving DecidableEq, Repr

/-- A link transmitter (R99): the message being sent, and those waiting behind it, oldest first. -/
structure Transmitter where
  sending : Option Message
  waiting : List Message
deriving DecidableEq, Repr

/-! ## Report engine -/

/-- The report the engine is handling, between two moments of its operation (R101; log 13): one it has taken from a
link's queue and not yet handed to its channel, or an INDICATION that channel `chan` has accepted and whose measurement
has not yet been handed to the store (R139). -/
inductive Hand where
  | taken (link : Fin 8) (report : Report)
  | filing (chan : Fin 8)
deriving DecidableEq, Repr

/-! ## Interlock, port and notices -/

/-- What the access interlock holds (R118). -/
structure Interlock where
  low : Bool
  changeCount : Nat
  latch : Bool
deriving DecidableEq, Repr

/-- The port states (R180). -/
inductive PortMode where
  | idle
  | receiving
  | executing
  | responding
deriving DecidableEq, Repr

/-- A tube found by FIND_TUBE, as it stood when it was visited (R17). -/
structure Found where
  index : Nat
  pos : Pos
  state : TubeState
deriving DecidableEq, Repr

/-- A long command in flight and how far it has come (R6, R14, R16, R17). `next` is the next tube index of a
rollover, the next cell of a visit. -/
inductive Work where
  | clearLayout (removed : Nat)
  | newCampaign (next : Nat)
  | prepareLayout (next : Nat)
  | planRegion (region : Rect) (action : PlanAction) (next changed : Nat)
  | findTube (states : BitVec 10) (next : Nat) (found : Option Found)
  | readTube (status : Status) (body : List Byte)
deriving DecidableEq, Repr

/-- A response (R183, R194): the frame's fields but its length and CRC, which `Response.frame` forms. -/
structure Response where
  command : Byte
  status : Status
  overrun : Bool
  body : List Byte
deriving DecidableEq, Repr

/-- What the command port holds (R180): `received` are the bytes of the request transfer in progress. `miso` is the
record of the bytes sent on MISO in the last transfer (R179; log 21); of a request transfer it holds the first byte, and
every later one is 00h. -/
structure Port where
  mode : PortMode
  received : List Byte
  work : Option Work
  response : Option Response
  overrun : Bool
  miso : List Byte
deriving DecidableEq, Repr

/-- A notice (R187). -/
structure Notice where
  cls : NoticeClass
  subject : Nat
deriving DecidableEq, Repr

/-- The eleven class levels (R187). -/
structure Levels where
  interlock : Nat
  stall : Nat
  link : Nat
  blocked : Nat
  plugCall : Nat
  dispute : Nat
  holdExpired : Nat
  watch : Nat
  pool : Nat
  exhausted : Nat
  campaignComplete : Nat
deriving DecidableEq, Repr

/-- What the notice unit holds (R187). The pending set is listed by class number and subject, rising. -/
structure NoticeUnit where
  pending : List Notice
  levels : Levels
  floor : Nat
  overflow : Bool
deriving DecidableEq, Repr

/-! ## The whole part -/

/-- The state of the part. `held` says that RESET# is low and in effect (00_scope.md section 4); `cancels` are the
echoes whose CANCEL is sent when the reset ends (R64). `hand` is the report the engine is handling (R101; log 13).
`clock` and `pending` are the model's own: the reference clock in milliseconds (log 3) and the queue of commands
(log 11). -/
structure State where
  clock : Nat
  held : Bool
  cancels : Eight (Option Echo)
  map : TubeMap
  store : Store
  freqs : Four FreqSettings
  seats : Four Seat
  chans : Eight Channel
  walker : Walker
  links : Eight Link
  txs : Eight Transmitter
  engine : Fin 8
  hand : Option Hand
  interlock : Interlock
  port : Port
  notices : NoticeUnit
  pending : List Instr
deriving DecidableEq, Repr

/-! ## Power-on values -/

/-- The defaults of the campaign parameters (R8). -/
def Params.default : Params :=
  { length := 12000, plugLimit := 40, tolerance := 10, mergeWindow := 10, growth := 10, attemptLimit := 3,
    overtravel := 100, holdLimit := 30, poolLevel := 1024 }

/-- Every census count 0 (R20). -/
def Census.zero : Census :=
  { untested := 0, claimed := 0, inTest := 0, tested := 0, underReview := 0, cleared := 0, plugCalled := 0,
    plugged := 0, retest := 0, blocked := 0, planned := 0, plannedOpen := 0 }

/-- The tube map at power-on (R20). -/
def TubeMap.powerOn : TubeMap :=
  { directory := [], tubes := [], params := Params.default, landmarks := none, phase := .layout, campaign := 0,
    census := Census.zero, armed := true, watches := Four.fill none }

/-- The indication store at power-on (R158). -/
def Store.powerOn : Store :=
  { pool := [], free := { fresh := 0, returned := [] }, warnArmed := true }

/-- The configuration defaults (the table of section 3.4): mix flags 4–7, every pattern flag, every zone, both
states, priority 1, tick 1 s, reload 60, all five reload events. -/
def Config.default : Config :=
  { face := .inlet
    window := { rowLo := 0, rowHi := 255, colLo := 0, colHi := 255 }
    keepouts := Eight.fill false
    majorAxis := .row, startCorner := .topLeft, serpentine := true
    mix := 0xF0#8, pattern := 0xFFFFFFFFFFFFFFFF#64, zones := 0xFFFF#16
    states := { untested := true, retest := true }
    priority := 1
    stallTick := .one, stallReload := 60
    reloads := { enter := true, progress := true, indication := true, farEnd := true, heartbeat := true } }

/-- The calibration defaults (R54). -/
def Calibration.default : Calibration :=
  { scale := 100, rotation := Four.fill 0, factor := Four.fill 1024 }

/-- A timer that has never been loaded: stopped with count 0 (R63, R124). Its tick period and next tick mean
nothing until a load; their values are a DESIGN CHOICE (log 22). -/
def StallTimer.unloaded : StallTimer := { mode := .stopped, count := 0, tick := .one, nextTick := 0 }

/-- A channel controller at power-on (R63). -/
def Channel.powerOn : Channel :=
  { state := .off, prior := none, interrupted := none, claim := none, config := Config.default,
    cal := Calibration.default, timer := StallTimer.unloaded, exhausted := false, lastCount := none,
    gapMarks := 0, overtravelMarks := 0, filing := none }

/-- The walker at power-on (R63, R83). R83 calls the regions undefined and gives them no bounds; the model holds none
(DESIGN CHOICE, log 24). -/
def Walker.powerOn : Walker :=
  { cursors := Eight.fill none, keepouts := Eight.fill none, clearance := 2, waiting := Eight.fill false,
    seek := none }

/-- No flag set. -/
def LinkFlags.none : LinkFlags :=
  { syncCorrected := false, headerDamaged := false, payloadDamaged := false, length := false, kind := false,
    source := false, queueOverrun := false, sequence := false }

/-- A receiver at power-on (R94, R98): every enable set but SYNC_CORRECTED. -/
def Link.powerOn : Link :=
  { rx := .hunt, header := Option.none, gathered := [], queue := [], flags := LinkFlags.none, errors := 0,
    lastKind := Option.none, lastSource := Option.none, policy := .auto, strict := true,
    enables :=
      { syncCorrected := false, headerDamaged := true, payloadDamaged := true, length := true, kind := true,
        source := true, queueOverrun := true, sequence := true } }

/-- A transmitter with nothing to send (R63, R99). -/
def Transmitter.quiet : Transmitter := { sending := none, waiting := [] }

/-- The interlock at power-on and at RESET# (R124). -/
def Interlock.clear : Interlock := { low := false, changeCount := 0, latch := false }

/-- The port at power-on and at RESET# (R185). -/
def Port.clear : Port := { mode := .idle, received := [], work := none, response := none, overrun := false, miso := [] }

/-- The default class levels (section 10.8.1). -/
def Levels.default : Levels :=
  { interlock := 7, stall := 6, link := 4, blocked := 3, plugCall := 3, dispute := 2, holdExpired := 2,
    watch := 1, pool := 5, exhausted := 1, campaignComplete := 1 }

/-- The notice unit at power-on (R193). -/
def NoticeUnit.powerOn : NoticeUnit :=
  { pending := [], levels := Levels.default, floor := 0, overflow := false }

/-- The part after power-on, when the reset has ended (R20, R63, R83, R98, R100, R124, R141, R158, R178, R185,
R193; log 10). -/
def State.reset : State :=
  { clock := 0
    held := false
    cancels := Eight.fill none
    map := TubeMap.powerOn
    store := Store.powerOn
    freqs := Four.fill { threshold := 4096, curve := none }
    seats := Four.fill { held := none, expiry := none }
    chans := Eight.fill Channel.powerOn
    walker := Walker.powerOn
    links := Eight.fill Link.powerOn
    txs := Eight.fill Transmitter.quiet
    engine := 7
    hand := none
    interlock := Interlock.clear
    port := Port.clear
    notices := NoticeUnit.powerOn
    pending := [] }

end Sys2Proof.Machine
end

