-- ==== Sys2Proof/Machine/Operands.lean ====
section
/-! DEFINITION. Operand forms: the codes of chapter 11, the permission table of R182, the ranges of check 5 of
R181, and the fields of requests, reports and frames read out of their bytes. -/

namespace Sys2Proof.Machine

/-! ## Codes (11.1, 11.4) -/

/-- The faces: INLET 0, OUTLET 1. -/
def Face.code : Face → Nat
  | .inlet => 0
  | .outlet => 1

/-- The phases: LAYOUT 0, ACTIVE 1, CLOSED 2. -/
def Phase.code : Phase → Nat
  | .layout => 0
  | .active => 1
  | .closed => 2

/-- The tube states, numbered as R22 lists them. -/
def TubeState.code : TubeState → Nat
  | .untested => 0
  | .claimed => 1
  | .inTest => 2
  | .tested => 3
  | .underReview => 4
  | .cleared => 5
  | .plugCalled => 6
  | .plugged => 7
  | .retest => 8
  | .blocked => 9

/-- The channel states, numbered as R42 lists them. -/
def ChanState.code : ChanState → Nat
  | .off => 0
  | .idle => 1
  | .seeking => 2
  | .assigned => 3
  | .probing => 4
  | .stalled => 5
  | .halted => 6

/-- The entry statuses: NEW 0 to DISMISSED 5. -/
def EntryStatus.code : EntryStatus → Nat
  | .new => 0
  | .oneCall => 1
  | .disputed => 2
  | .resolving => 3
  | .final => 4
  | .dismissed => 5

/-- The landmarks: TSI 0, S1 to S14 as 1 to 14, TSO 15. -/
def Landmark.code : Landmark → Nat
  | .tsi => 0
  | .support n => n
  | .tso => 15

/-- The status codes 00h to 1Bh, in the order of the status table of R182. -/
def Status.code : Status → Nat
  | .ok => 0 | .format => 1 | .unknown => 2 | .role => 3 | .phase => 4 | .range => 5 | .full => 6
  | .noTube => 7 | .tubeBusy => 8 | .state => 9 | .clearance => 10 | .interlock => 11 | .lineActive => 12
  | .channelBusy => 13 | .claimHeld => 14 | .noClaim => 15 | .outsideWindow => 16 | .curveInvalid => 17
  | .curveMissing => 18 | .landmarks => 19 | .tubes => 20 | .claimsActive => 21 | .held => 22
  | .seatBusy => 23 | .notHolder => 24 | .callsMissing => 25 | .truncated => 26 | .noEntry => 27

/-- The command codes 01h to 2Ah, in the order of the permission table of R182. -/
def Command.code : Command → Byte
  | .defineTubes => 0x01#8 | .clearLayout => 0x02#8 | .setLandmarks => 0x03#8 | .setCampaign => 0x04#8
  | .loadCurve => 0x05#8 | .openCampaign => 0x06#8 | .closeCampaign => 0x07#8 | .newCampaign => 0x08#8
  | .prepareLayout => 0x09#8 | .planRegion => 0x0A#8 | .configureChannel => 0x0B#8
  | .setChannelCal => 0x0C#8 | .setKeepout => 0x0D#8 | .setClearance => 0x0E#8 | .startChannel => 0x0F#8
  | .stopChannel => 0x10#8 | .abandon => 0x11#8 | .resume => 0x12#8 | .channelReset => 0x13#8
  | .assignTube => 0x14#8 | .setLink => 0x15#8 | .restartLink => 0x16#8 | .interlockClear => 0x17#8
  | .plugTube => 0x18#8 | .unblockTube => 0x19#8 | .submitCall => 0x1A#8 | .reviewDone => 0x1B#8
  | .takeEntry => 0x1C#8 | .resolveEntry => 0x1D#8 | .releaseEntry => 0x1E#8 | .requestRetest => 0x1F#8
  | .readTube => 0x20#8 | .findTube => 0x21#8 | .readEntry => 0x22#8 | .readCensus => 0x23#8
  | .readChannel => 0x24#8 | .readLink => 0x25#8 | .readStatus => 0x26#8 | .setNoticeLevel => 0x27#8
  | .setFloor => 0x28#8 | .takeNotice => 0x29#8 | .setWatch => 0x2A#8

/-- The notice class numbers (section 10.8.1). -/
def NoticeClass.number : NoticeClass → Nat
  | .interlock => 0 | .stall => 1 | .link => 2 | .blocked => 3 | .plugCall => 4 | .dispute => 5
  | .holdExpired => 6 | .watch => 7 | .pool => 8 | .exhausted => 9 | .campaignComplete => 10

/-- The notice class of a number; absent for an unknown class. -/
def noticeClassOf : Nat → Option NoticeClass
  | 0 => some .interlock | 1 => some .stall | 2 => some .link | 3 => some .blocked | 4 => some .plugCall
  | 5 => some .dispute | 6 => some .holdExpired | 7 => some .watch | 8 => some .pool | 9 => some .exhausted
  | 10 => some .campaignComplete
  | _ => none

/-- The kind codes of the seven reports (R195). -/
def ReportKind.code : ReportKind → Nat
  | .enter => 1 | .progress => 2 | .indication => 3 | .farEnd => 4 | .exit => 5 | .obstructed => 6
  | .heartbeat => 7

/-- The report kind of a code; absent for a kind the receiver does not know, 11h–14h included (R195). -/
def reportKindOf : Nat → Option ReportKind
  | 1 => some .enter | 2 => some .progress | 3 => some .indication | 4 => some .farEnd | 5 => some .exit
  | 6 => some .obstructed | 7 => some .heartbeat
  | _ => none

/-- The fixed payload length of each report kind (R195). -/
def ReportKind.length : ReportKind → Nat
  | .progress => 7
  | .indication => 14
  | .enter | .farEnd | .exit | .obstructed | .heartbeat => 4

/-- The kind codes of the assignment messages (R195). -/
def MessageKind.code : MessageKind → Nat
  | .assign => 0x11 | .hold => 0x12 | .release => 0x13 | .cancel => 0x14

/-- The call a code and a depth field spell (R162, 11.1): for a code other than DEPTH the depth is ignored; absent
for an unknown code, 0 included, and for a DEPTH above 100. -/
def callOf (code depth : Nat) : Option Call :=
  match code with
  | 1 => if depth ≤ 100 then some (.depth depth) else none
  | 2 => some .nonQuantifiable
  | 3 => some .geometry
  | 4 => some .noneFound
  | _ => none

/-- The code of a call (11.1). -/
def Call.code : Call → Nat
  | .depth _ => 1
  | .nonQuantifiable => 2
  | .geometry => 3
  | .noneFound => 4

/-- The depth of a call, present for DEPTH alone (R162). -/
def Call.depth? : Call → Option Nat
  | .depth d => some d
  | _ => none

/-- The face of a code (11.1). -/
def faceOf : Nat → Option Face
  | 0 => some .inlet
  | 1 => some .outlet
  | _ => none

/-- The major axis of a code (11.4). -/
def axisOf : Nat → Option Axis
  | 0 => some .row
  | 1 => some .column
  | _ => none

/-- The start corner of a code (11.4). -/
def cornerOf : Nat → Option Corner
  | 0 => some .topLeft
  | 1 => some .topRight
  | 2 => some .bottomLeft
  | 3 => some .bottomRight
  | _ => none

/-- The stall tick of a code (11.4). -/
def stallTickOf : Nat → Option StallTick
  | 0 => some .tenth
  | 1 => some .one
  | 2 => some .ten
  | 3 => some .sixty
  | _ => none

/-- The recovery policy of a code (11.4). -/
def policyOf : Nat → Option Policy
  | 0 => some .auto
  | 1 => some .stop
  | _ => none

/-- The code of a major axis (11.4). -/
def Axis.code : Axis → Nat
  | .row => 0
  | .column => 1

/-- The code of a start corner (11.4). -/
def Corner.code : Corner → Nat
  | .topLeft => 0
  | .topRight => 1
  | .bottomLeft => 2
  | .bottomRight => 3

/-- The code of a stall tick (11.4). -/
def StallTick.code : StallTick → Nat
  | .tenth => 0
  | .one => 1
  | .ten => 2
  | .sixty => 3

/-- The tick period in milliseconds (R112). -/
def StallTick.millis : StallTick → Nat
  | .tenth => 100
  | .one => 1000
  | .ten => 10000
  | .sixty => 60000

/-- The code of a timer mode (11.4). -/
def TimerMode.code : TimerMode → Nat
  | .running => 0
  | .frozen => 1
  | .stopped => 2

/-- The code of a receive state (11.4). -/
def RxState.code : RxState → Nat
  | .hunt => 0
  | .header => 1
  | .payload => 2
  | .fault => 3

/-- The code of a recovery policy (11.4). -/
def Policy.code : Policy → Nat
  | .auto => 0
  | .stop => 1

/-! ## Roles and the permission table (introduction 5.5, R182) -/

/-- The five roles. -/
inductive Role where
  | planner
  | crew
  | primary
  | secondary
  | resolver
deriving DecidableEq, Repr

/-- The role of a role code (R194); a code of 0 or 6 to 15 is no role. -/
def roleOf : Nat → Option Role
  | 1 => some .planner
  | 2 => some .crew
  | 3 => some .primary
  | 4 => some .secondary
  | 5 => some .resolver
  | _ => none

/-- The roles R182 permits for a command. -/
def Command.permitsRole (c : Command) (r : Role) : Bool :=
  match c with
  | .defineTubes | .clearLayout | .setLandmarks | .setCampaign | .loadCurve | .openCampaign | .closeCampaign
  | .newCampaign | .prepareLayout | .planRegion => decide (r = .planner)
  | .configureChannel | .setChannelCal | .setKeepout | .setClearance | .startChannel | .stopChannel | .abandon
  | .resume | .channelReset | .assignTube | .setLink | .restartLink | .interlockClear =>
    decide (r = .planner ∨ r = .crew)
  | .plugTube | .unblockTube => decide (r = .crew)
  | .submitCall | .reviewDone => decide (r = .primary ∨ r = .secondary)
  | .takeEntry | .resolveEntry | .releaseEntry => decide (r = .resolver)
  | .requestRetest => decide (r = .primary ∨ r = .secondary ∨ r = .resolver)
  | .readTube | .findTube | .readEntry | .readCensus | .readChannel | .readLink | .readStatus | .setNoticeLevel
  | .setFloor | .takeNotice | .setWatch => true

/-- The phases R182 permits for a command. -/
def Command.permitsPhase (c : Command) (p : Phase) : Bool :=
  match c with
  | .defineTubes | .clearLayout | .setLandmarks | .setCampaign | .loadCurve | .openCampaign =>
    decide (p = .layout)
  | .closeCampaign | .startChannel | .assignTube | .unblockTube | .submitCall | .reviewDone | .takeEntry
  | .resolveEntry | .releaseEntry | .requestRetest => decide (p = .active)
  | .newCampaign | .prepareLayout => decide (p = .closed)
  | .planRegion => decide (p = .layout ∨ p = .active)
  | .configureChannel | .setChannelCal | .setKeepout | .setClearance | .stopChannel | .abandon | .resume
  | .channelReset | .setLink | .restartLink | .interlockClear | .plugTube | .readTube | .findTube | .readEntry
  | .readCensus | .readChannel | .readLink | .readStatus | .setNoticeLevel | .setFloor | .takeNotice
  | .setWatch => true

/-- Checks 3 to 5 of R181, in that order: the status of the first that fails, or absent when all pass. `inRange`
says whether every field of the request lies in the range its rule gives. -/
def portRefusal (c : Command) (role : Nat) (phase : Phase) (inRange : Bool) : Option Status :=
  match roleOf role with
  | none => some .role
  | some r =>
    if !c.permitsRole r then some .role
    else if !c.permitsPhase phase then some .phase
    else if !inRange then some .range
    else none

/-! ## Fields of requests -/

/-- A channel, link or region number that has passed the range check. -/
def eightOf (n : Nat) : Fin 8 := Fin.ofNat 8 n

/-- A seat or slot number that has passed the range check. -/
def fourOf (n : Nat) : Fin 4 := Fin.ofNat 4 n

/-- A grid position inside the grid (introduction 5.1). -/
def Pos.inGrid (p : Pos) : Bool := p.row < 256 && p.col < 256

/-- The cell of a position, in row-major order (R1, R16, R17). -/
def Pos.cell (p : Pos) : Nat := 256 * p.row + p.col

/-- The position of a cell. -/
def cellPos (n : Nat) : Pos := { row := n / 256, col := n % 256 }

/-- The Chebyshev distance (introduction 5.3). -/
def Pos.distance (p q : Pos) : Nat :=
  max (max p.row q.row - min p.row q.row) (max p.col q.col - min p.col q.col)

/-- A coordinate clamped to 0–255 (R16, R51, R68). -/
def clamp (i : Int) : Nat := (min (max i 0) 255).toNat

/-- A rectangle with its bounds clamped (R16, R51, R68). -/
def Bounds.clamped (b : Bounds) : Rect :=
  { rowLo := clamp b.rowLo, rowHi := clamp b.rowHi, colLo := clamp b.colLo, colHi := clamp b.colHi }

/-- A position inside a rectangle, bounds included (R67, R68). -/
def Rect.holds (r : Rect) (p : Pos) : Bool :=
  r.rowLo ≤ p.row && p.row ≤ r.rowHi && r.colLo ≤ p.col && p.col ≤ r.colHi

/-- A tube name in range: its selector is 00h or 01h, its position on the grid (11.1). -/
def TubeName.inRange : TubeName → Bool
  | .position p => p.inGrid
  | .index _ => true
  | .other _ => false

/-- An entry number in range (R144). -/
def EntryRef.inRange (r : EntryRef) : Bool := r.number < Config.poolSize

/-- A value that is absent or lies from `lo` to `hi`. -/
def optionIn (lo hi : Nat) : Option Nat → Bool
  | none => true
  | some v => lo ≤ v && v ≤ hi

/-- The ranges of the campaign parameters (R8). -/
def CampaignFields.inRange (f : CampaignFields) : Bool :=
  optionIn 3000 20000 f.length && optionIn 1 100 f.plugLimit && optionIn 0 50 f.tolerance &&
  optionIn 1 50 f.mergeWindow && optionIn 1 100 f.growth && optionIn 1 7 f.attemptLimit &&
  optionIn 0 500 f.overtravel && optionIn 1 255 f.holdLimit && optionIn 0 16383 f.poolLevel

/-- Each present value replaces its parameter (R8). -/
def CampaignFields.apply (f : CampaignFields) (p : Params) : Params :=
  { length := f.length.getD p.length
    plugLimit := f.plugLimit.getD p.plugLimit
    tolerance := f.tolerance.getD p.tolerance
    mergeWindow := f.mergeWindow.getD p.mergeWindow
    growth := f.growth.getD p.growth
    attemptLimit := f.attemptLimit.getD p.attemptLimit
    overtravel := f.overtravel.getD p.overtravel
    holdLimit := f.holdLimit.getD p.holdLimit
    poolLevel := f.poolLevel.getD p.poolLevel }

/-- The ranges of the calibration values (R54). -/
def CalFields.inRange (f : CalFields) : Bool :=
  optionIn 1 1000 f.scale && f.rotation.toList.all (optionIn 0 3599) && f.factor.toList.all (optionIn 1 4095)

/-- Four present values over four old ones. -/
def mergeFour (new : Four (Option Nat)) (old : Four Nat) : Four Nat :=
  { a0 := new.a0.getD old.a0, a1 := new.a1.getD old.a1, a2 := new.a2.getD old.a2, a3 := new.a3.getD old.a3 }

/-- Each present value replaces its part of the calibration (R54). -/
def CalFields.apply (f : CalFields) (c : Calibration) : Calibration :=
  { scale := f.scale.getD c.scale
    rotation := mergeFour f.rotation c.rotation
    factor := mergeFour f.factor c.factor }

/-- Strictly rising numbers. -/
def rising : List Nat → Bool
  | a :: b :: t => a < b && rising (b :: t)
  | _ => true

/-- The range condition of SET_LANDMARKS (R7), for the tube length in force. -/
def landmarksInRange (length : Nat) (l : List Nat) : Bool :=
  l.length ≤ 14 && l.all (fun p => 1 ≤ p && p ≤ length - 1) && rising l

/-- The conditions on a curve's points (R126). -/
def curveValid (points : List CurvePoint) : Bool :=
  2 ≤ points.length && points.length ≤ 8 && points.all (fun p => p.phase ≤ 3599 && p.depth ≤ 100) &&
  rising (points.map CurvePoint.phase)

/-- The range condition of CONFIGURE_CHANNEL on its fields (R51): the face, and the values of each group whose keep
flag is set. Window coordinates are clamped, never refused. -/
def ConfigFields.inRange (f : ConfigFields) : Bool :=
  (faceOf f.face).isSome &&
  (!f.keep2 || ((axisOf f.majorAxis).isSome && (cornerOf f.startCorner).isSome)) &&
  (!f.keep4 || f.priority ≤ 7) &&
  (!f.keep5 || ((stallTickOf f.stallTick).isSome && f.stallReload ≤ 255))

/-- The configuration a request makes (R51): the face, each kept group as carried, every other group at its
defaults. -/
def ConfigFields.config (f : ConfigFields) : Config :=
  let d := Config.default
  { face := (faceOf f.face).getD d.face
    window := if f.keep1 then f.window.clamped else d.window
    keepouts := if f.keep1 then f.keepouts else d.keepouts
    majorAxis := if f.keep2 then (axisOf f.majorAxis).getD d.majorAxis else d.majorAxis
    startCorner := if f.keep2 then (cornerOf f.startCorner).getD d.startCorner else d.startCorner
    serpentine := if f.keep2 then f.serpentine else d.serpentine
    mix := if f.keep3 then f.mix else d.mix
    pattern := if f.keep3 then f.pattern else d.pattern
    zones := if f.keep3 then f.zones else d.zones
    states := if f.keep3 then f.states else d.states
    priority := if f.keep4 then f.priority else d.priority
    stallTick := if f.keep5 then (stallTickOf f.stallTick).getD d.stallTick else d.stallTick
    stallReload := if f.keep5 then f.stallReload else d.stallReload
    reloads := if f.keep5 then f.reloads else d.reloads }

/-- Two configurations agree in groups 1, 2 and 3, the groups whose change resets the cursor (R52). -/
def Config.sameSelection (a b : Config) : Bool :=
  decide (a.window = b.window ∧ a.keepouts = b.keepouts ∧ a.majorAxis = b.majorAxis ∧
    a.startCorner = b.startCorner ∧ a.serpentine = b.serpentine ∧ a.mix = b.mix ∧ a.pattern = b.pattern ∧
    a.zones = b.zones ∧ a.states = b.states)

/-- The columns a run of DEFINE_TUBES visits, ascending: from the first column by the step, not past the last
(R4). -/
def runColumns (first last step : Nat) : List Nat :=
  (List.range' 0 ((last - first) / step + 1)).map (fun k => first + k * step)

/-! ## Bytes (11.1: most significant byte first) -/

/-- One byte. -/
def byte1 (n : Nat) : List Byte := [BitVec.ofNat 8 n]

/-- Two bytes. -/
def byte2 (n : Nat) : List Byte := [BitVec.ofNat 8 (n / 256), BitVec.ofNat 8 n]

/-- Three bytes. -/
def byte3 (n : Nat) : List Byte := BitVec.ofNat 8 (n / 65536) :: byte2 n

/-- Four bytes. -/
def byte4 (n : Nat) : List Byte := BitVec.ofNat 8 (n / 16777216) :: byte3 n

/-- A signed number in two bytes, two's complement. -/
def signed2 (i : Int) : List Byte := byte2 (i % 65536).toNat

/-- A flag as one byte. -/
def flag1 (b : Bool) : List Byte := byte1 b.toNat

/-- A set of up to eight flags, flag 0 in bit 0. -/
def flagsNat : List Bool → Nat
  | [] => 0
  | b :: t => b.toNat + 2 * flagsNat t

/-- A depth, channel or seat, FFh when absent (11.1). -/
def absentFF (o : Option Nat) : List Byte := byte1 (o.getD 0xFF)

/-- A position: row, then column. -/
def Pos.bytes (p : Pos) : List Byte := byte1 p.row ++ byte1 p.col

/-- A field that may be absent and has no code of its own (11.1): a presence byte, then the field or `width` bytes
of 00h. -/
def presence {α : Type} (width : Nat) (bytes : α → List Byte) : Option α → List Byte
  | none => byte1 0 ++ List.replicate width 0#8
  | some x => byte1 1 ++ bytes x

/-- An entry reference: number (2), then issue (1). -/
def EntryRef.bytes (r : EntryRef) : List Byte := byte2 r.number ++ byte1 r.issue

/-- The number a list of bytes spells, most significant byte first. -/
def bytesNat (l : List Byte) : Nat := l.foldl (fun n b => n * 256 + b.toNat) 0

/-- The big-endian number of `len` bytes of a payload from byte `start` on. -/
def field (payload : List Byte) (start len : Nat) : Nat := bytesNat ((payload.drop start).take len)

/-! ## Check codes (R194, R195) -/

/-- One bit of the CRC-16 of generator 1021h: the register shifted up, the generator added when a 1 leaves it. -/
def crc16Bit (r : Nat) : Nat :=
  if r < 32768 then 2 * r else Nat.xor (2 * r - 65536) 0x1021

/-- One byte into the CRC-16, most significant bit first. -/
def crc16Byte (r : Nat) (b : Byte) : Nat :=
  crc16Bit (crc16Bit (crc16Bit (crc16Bit (crc16Bit (crc16Bit (crc16Bit (crc16Bit
    (Nat.xor r (b.toNat * 256)))))))))

/-- The CRC-16 of R194: from FFFFh, no reflection, no final inversion. -/
def crc16 (l : List Byte) : Nat := l.foldl crc16Byte 0xFFFF

/-- One bit of the CRC-8 of generator 07h. -/
def crc8Bit (r : Nat) : Nat :=
  if r < 128 then 2 * r else Nat.xor (2 * r - 256) 0x07

/-- One byte into the CRC-8, most significant bit first. -/
def crc8Byte (r : Nat) (b : Byte) : Nat :=
  crc8Bit (crc8Bit (crc8Bit (crc8Bit (crc8Bit (crc8Bit (crc8Bit (crc8Bit (Nat.xor r b.toNat))))))))

/-- The CRC-8 of R195: from 00h, no reflection, no final inversion. -/
def crc8 (l : List Byte) : Nat := l.foldl crc8Byte 0

/-! ## Frames -/

/-- A response frame (R194). -/
def Response.frame (r : Response) : List Byte :=
  let front := byte2 (r.body.length + 7) ++ [r.command] ++ byte1 r.status.code ++ flag1 r.overrun ++ r.body
  front ++ byte2 (crc16 front)

/-- The echo bytes that open every payload (R195). -/
def Echo.bytes (e : Echo) : List Byte := e.pos.bytes ++ byte1 e.face.code ++ byte1 e.pass

/-- An outgoing frame on link `n` (R99, R195): sync word, source, kind, length 4, CRC-8, echo, CRC-16. -/
def Message.frame (m : Message) (n : Fin 8) : List Byte :=
  let header := byte1 n.val ++ byte1 m.kind.code ++ byte1 4
  byte2 0xB38E ++ header ++ byte1 (crc8 header) ++ m.echo.bytes ++ byte2 (crc16 m.echo.bytes)

/-- The format check of R181 and R194: the length byte is 05h or more, as many bytes as it says were received, and
the last two are the CRC-16 of the rest. -/
def formatGood (bytes : List Byte) : Bool :=
  match bytes with
  | [] => false
  | len :: _ =>
    5 ≤ len.toNat && bytes.length == len.toNat &&
    bytesNat (bytes.drop (bytes.length - 2)) == crc16 (bytes.take (bytes.length - 2))

/-- How many of 16 bits differ from the sync word B38Eh (R86). -/
def syncDistance (w : BitVec 16) : Nat :=
  ((List.range' 0 16).filter (fun i => (w ^^^ 0xB38E#16).getLsbD i)).length

/-! ## Reports -/

/-- The echo of a report (R103): row, column, face byte, pass number, equal to those of the claim. -/
def Report.echoMatches (r : Report) (c : Claim) : Bool :=
  field r.payload 0 1 == c.pos.row && field r.payload 1 1 == c.pos.col &&
  field r.payload 2 1 == c.face.code && field r.payload 3 1 == c.pass

/-- The fields of an INDICATION (R128). -/
structure Indication where
  count : Nat
  freq : Nat
  phaseRaw : Nat
  amplitudeRaw : Nat
  extentCount : Nat
deriving DecidableEq, Repr

/-- The encoder count of a PROGRESS or an INDICATION (R195). -/
def Report.encoderCount (r : Report) : Nat := field r.payload 4 3

/-- The fields of an INDICATION, read from its payload (R195). -/
def Report.indication (r : Report) : Indication :=
  { count := r.encoderCount
    freq := field r.payload 7 1
    phaseRaw := field r.payload 8 2
    amplitudeRaw := field r.payload 10 2
    extentCount := field r.payload 12 2 }

/-! ## Small readings of the records -/

/-- UNTESTED and RETEST can be claimed (R22). -/
def TubeState.claimable : TubeState → Bool
  | .untested | .retest => true
  | _ => false

/-- The terminal states (R18). -/
def TubeState.terminal : TubeState → Bool
  | .cleared | .plugCalled | .plugged | .blocked => true
  | _ => false

/-- The states in which calls are taken (table of section 2.1). -/
def TubeState.takesCalls : TubeState → Bool
  | .tested | .underReview => true
  | _ => false

/-- The echo of a claim (R46). -/
def Claim.echo (c : Claim) : Echo := { pos := c.pos, face := c.face, pass := c.pass }

/-- The greater of two depths, an absent one counting as lower than 0 (R3). -/
def depthMax : Option Nat → Option Nat → Option Nat
  | none, b => b
  | some a, none => some a
  | some a, some b => some (max a b)

end Sys2Proof.Machine
end

