-- ==== Sys2Proof/Machine/Flags.lean ====
section
/-! DEFINITION. Flags and counts: the link error flags, the class levels and ATTN#, the census, the pending set. -/

namespace Sys2Proof.Machine

/-! ## Link error flags and report enables (R84, R94) -/

/-- The flag of an error kind. -/
def LinkFlags.get (f : LinkFlags) : LinkError → Bool
  | .syncCorrected => f.syncCorrected
  | .headerDamaged => f.headerDamaged
  | .payloadDamaged => f.payloadDamaged
  | .length => f.length
  | .kind => f.kind
  | .source => f.source
  | .queueOverrun => f.queueOverrun
  | .sequence => f.sequence

/-- The flags with that of one kind set (R93). -/
def LinkFlags.raise (f : LinkFlags) : LinkError → LinkFlags
  | .syncCorrected => { f with syncCorrected := true }
  | .headerDamaged => { f with headerDamaged := true }
  | .payloadDamaged => { f with payloadDamaged := true }
  | .length => { f with length := true }
  | .kind => { f with kind := true }
  | .source => { f with source := true }
  | .queueOverrun => { f with queueOverrun := true }
  | .sequence => { f with sequence := true }

/-- The flags in order, SYNC_CORRECTED as flag 0 (11.1). -/
def LinkFlags.toList (f : LinkFlags) : List Bool :=
  [f.syncCorrected, f.headerDamaged, f.payloadDamaged, f.length, f.kind, f.source, f.queueOverrun, f.sequence]

/-! ## Class levels and the pending set (R187 to R192) -/

/-- The level of a class. -/
def Levels.get (l : Levels) : NoticeClass → Nat
  | .interlock => l.interlock
  | .stall => l.stall
  | .link => l.link
  | .blocked => l.blocked
  | .plugCall => l.plugCall
  | .dispute => l.dispute
  | .holdExpired => l.holdExpired
  | .watch => l.watch
  | .pool => l.pool
  | .exhausted => l.exhausted
  | .campaignComplete => l.campaignComplete

/-- The levels with that of one class replaced. -/
def Levels.set (l : Levels) (c : NoticeClass) (v : Nat) : Levels :=
  match c with
  | .interlock => { l with interlock := v }
  | .stall => { l with stall := v }
  | .link => { l with link := v }
  | .blocked => { l with blocked := v }
  | .plugCall => { l with plugCall := v }
  | .dispute => { l with dispute := v }
  | .holdExpired => { l with holdExpired := v }
  | .watch => { l with watch := v }
  | .pool => { l with pool := v }
  | .exhausted => { l with exhausted := v }
  | .campaignComplete => { l with campaignComplete := v }

/-- The levels of classes 0 to 10. -/
def Levels.toList (l : Levels) : List Nat :=
  [l.interlock, l.stall, l.link, l.blocked, l.plugCall, l.dispute, l.holdExpired, l.watch, l.pool, l.exhausted,
   l.campaignComplete]

/-- Notice `a` comes before `b` in the listing of the pending set: by class number, then by subject. -/
def Notice.before (a b : Notice) : Bool :=
  a.cls.number < b.cls.number || (a.cls.number == b.cls.number && a.subject < b.subject)

/-- The pending set with a notice entered at its place. -/
def insertNotice (n : Notice) : List Notice → List Notice
  | [] => [n]
  | m :: t => if n.before m then n :: m :: t else m :: insertNotice n t

/-- Notice `a` is lower than `b` (R189): lower level, then higher class number, then higher subject. -/
def Notice.lower (l : Levels) (a b : Notice) : Bool :=
  l.get a.cls < l.get b.cls || (l.get a.cls == l.get b.cls && b.before a)

/-- The lowest notice of the set (R189). -/
def lowestNotice (l : Levels) : List Notice → Option Notice
  | [] => none
  | n :: t =>
    match lowestNotice l t with
    | none => some n
    | some m => some (if n.lower l m then n else m)

/-- The notice TAKE_NOTICE selects (R192): highest level, then lowest class number, then lowest subject. -/
def highestNotice (l : Levels) : List Notice → Option Notice
  | [] => none
  | n :: t =>
    match highestNotice l t with
    | none => some n
    | some m => some (if m.lower l n then n else m)

/-- A post of class `c` and subject `s` (R188, R189). -/
def NoticeUnit.post (u : NoticeUnit) (c : NoticeClass) (s : Nat) : NoticeUnit :=
  let n : Notice := { cls := c, subject := s }
  if u.levels.get c = 0 then u
  else if n ∈ u.pending then u
  else if u.pending.length < Config.noticeLimit then { u with pending := insertNotice n u.pending }
  else
    match lowestNotice u.levels u.pending with
    | none => { u with overflow := true }
    | some m =>
      if u.levels.get m.cls < u.levels.get c then
        { u with pending := insertNotice n (u.pending.erase m), overflow := true }
      else { u with overflow := true }

/-- The unit after a removal that left `rest` pending: the overflow flag is cleared when the set becomes empty
(R187, R189, R192). -/
def NoticeUnit.keep (u : NoticeUnit) (rest : List Notice) : NoticeUnit :=
  { u with pending := rest, overflow := if rest.isEmpty && !u.pending.isEmpty then false else u.overflow }

/-- A class's level is set, and at level 0 its pending notices are removed (R187). -/
def NoticeUnit.setLevel (u : NoticeUnit) (c : NoticeClass) (v : Nat) : NoticeUnit :=
  let u' := { u with levels := u.levels.set c v }
  if v = 0 then u'.keep (u.pending.filter (fun n => decide (n.cls ≠ c))) else u'

/-- Some pending notice's class level is greater than the floor (R191). -/
def NoticeUnit.attention (u : NoticeUnit) : Bool :=
  u.pending.any (fun n => u.floor < u.levels.get n.cls)

/-- The pin ATTN#, true when it is asserted (R191); while RESET# is low it is released (00_scope.md section 4). -/
def State.attn (s : State) : Bool := !s.held && s.notices.attention

/-- The pin READY, true when it is high (R180). -/
def State.ready (s : State) : Bool := !s.held && decide (s.port.mode = .responding)

/-! ## The census (R18) -/

/-- The count of a tube state. -/
def Census.count (c : Census) : TubeState → Nat
  | .untested => c.untested
  | .claimed => c.claimed
  | .inTest => c.inTest
  | .tested => c.tested
  | .underReview => c.underReview
  | .cleared => c.cleared
  | .plugCalled => c.plugCalled
  | .plugged => c.plugged
  | .retest => c.retest
  | .blocked => c.blocked

/-- The census with the count of one state replaced. -/
def Census.setCount (c : Census) (t : TubeState) (v : Nat) : Census :=
  match t with
  | .untested => { c with untested := v }
  | .claimed => { c with claimed := v }
  | .inTest => { c with inTest := v }
  | .tested => { c with tested := v }
  | .underReview => { c with underReview := v }
  | .cleared => { c with cleared := v }
  | .plugCalled => { c with plugCalled := v }
  | .plugged => { c with plugged := v }
  | .retest => { c with retest := v }
  | .blocked => { c with blocked := v }

/-- The ten state counts, UNTESTED first (11.4). -/
def Census.toList (c : Census) : List Nat :=
  [c.untested, c.claimed, c.inTest, c.tested, c.underReview, c.cleared, c.plugCalled, c.plugged, c.retest,
   c.blocked]

/-- A planned tube that is not in a terminal state (R18). -/
def Tube.isOpen (t : Tube) : Bool := t.planned && !t.state.terminal

/-- The census with one tube counted in. -/
def Census.enter (c : Census) (t : Tube) : Census :=
  let c' := c.setCount t.state (c.count t.state + 1)
  { c' with planned := c'.planned + t.planned.toNat, plannedOpen := c'.plannedOpen + t.isOpen.toNat }

/-- The census with one tube counted out. -/
def Census.leave (c : Census) (t : Tube) : Census :=
  let c' := c.setCount t.state (c.count t.state - 1)
  { c' with planned := c'.planned - t.planned.toNat, plannedOpen := c'.plannedOpen - t.isOpen.toNat }

/-- The census when a tube's record changes from `old` to `new` (R18): the old state's count falls and the new
one's rises, and the planned counts move with the flag and with the crossing of the terminal states. -/
def Census.move (c : Census) (old new : Tube) : Census := (c.leave old).enter new

end Sys2Proof.Machine
end

