-- ==== Sys2Proof/Machine/Sparse.lean ====
section
/-! DEFINITION. The two addressed arrays, position directory and entry pool, as sparse lists in one canonical form
(log 18), and the free list as a queue. -/

namespace Sys2Proof.Machine

variable {α : Type}

/-- What key `n` reads as: the listed value, or `d` where none is listed. -/
def sparseGet (d : α) : List (Nat × α) → Nat → α
  | [], _ => d
  | (k, v) :: t, n => if k = n then v else sparseGet d t n

/-- The list with `v` at key `n`, keys rising. -/
def sparsePut : List (Nat × α) → Nat → α → List (Nat × α)
  | [], n, v => [(n, v)]
  | (k, w) :: t, n, v =>
    if n < k then (n, v) :: (k, w) :: t
    else if n = k then (n, v) :: t
    else (k, w) :: sparsePut t n v

/-- The list without key `n`. -/
def sparseErase (m : List (Nat × α)) (n : Nat) : List (Nat × α) := m.filter (fun kv => decide (kv.1 ≠ n))

/-- A write: the value an unlisted key reads as takes the key out. -/
def sparseSet [DecidableEq α] (d : α) (m : List (Nat × α)) (n : Nat) (v : α) : List (Nat × α) :=
  if v = d then sparseErase m n else sparsePut m n v

/-- The canonical form: keys strictly rising, no value that an unlisted key reads as. -/
def sparseWf [DecidableEq α] (d : α) : List (Nat × α) → Bool
  | [] => true
  | [(_, v)] => decide (v ≠ d)
  | (k, v) :: (j, w) :: t => decide (v ≠ d) && decide (k < j) && sparseWf d ((j, w) :: t)

/-- A place of the pool that nothing has taken yet (R158): free, with issue number 0. -/
def emptySlot : PoolSlot := { issue := 0, content := none }

/-! ## The position directory (R1) -/

/-- The tube index of a position's cell, or absent for "no tube". A position off the grid has no cell. -/
def TubeMap.at (m : TubeMap) (p : Pos) : Option Nat :=
  if p.inGrid then sparseGet none m.directory p.cell else none

/-! ## The entry pool (R142, R143) -/

/-- The place of entry number `n`. -/
def Store.slot (st : Store) (n : Nat) : PoolSlot := sparseGet emptySlot st.pool n

/-- The entry of number `n`, when it is in use. -/
def Store.entry (st : Store) (n : Nat) : Option Entry := (st.slot n).content

/-- A place of the pool replaced. -/
def Store.setSlot (st : Store) (n : Nat) (p : PoolSlot) : Store :=
  { st with pool := sparseSet emptySlot st.pool n p }

/-- The content of an entry replaced, its issue number kept. -/
def Store.setEntry (st : Store) (n : Nat) (e : Entry) : Store :=
  st.setSlot n { issue := (st.slot n).issue, content := some e }

/-- The numbers of the entries in use, ascending. -/
def Store.inUse (st : Store) : List Nat := (st.pool.filter (fun ks => ks.2.content.isSome)).map Prod.fst

/-- The entry number a reference names (R144): it is in use and its issue number is that of the reference. -/
def Store.resolve (st : Store) (r : EntryRef) : Option Entry :=
  if (st.slot r.number).issue = r.issue then st.entry r.number else none

/-- The reference of entry number `n` as it stands. -/
def Store.refOf (st : Store) (n : Nat) : EntryRef := { number := n, issue := (st.slot n).issue }

/-! ## The free list (R142) -/

/-- The free list written out, head first. -/
def FreeList.toList (f : FreeList) : List Nat :=
  List.range' f.fresh (Config.poolSize - f.fresh) ++ f.returned

/-- The free count. -/
def FreeList.count (f : FreeList) : Nat := (Config.poolSize - f.fresh) + f.returned.length

/-- The entry at the head and the list without it; absent when the list is empty. -/
def FreeList.take (f : FreeList) : Option (Nat × FreeList) :=
  if f.fresh < Config.poolSize then some (f.fresh, { f with fresh := f.fresh + 1 })
  else
    match f.returned with
    | [] => none
    | n :: t => some (n, { f with returned := t })

/-- The list with entry `n` at its tail. -/
def FreeList.put (f : FreeList) (n : Nat) : FreeList := { f with returned := f.returned ++ [n] }

end Sys2Proof.Machine
end

