-- ==== Sys2Proof/Machine/Ops.lean ====
section
/-! DEFINITION. The operations the commands share: notices, messages, the seek condition, tube changes, evaluation,
retirement, claims, the stall timer, link errors, and the port's taking and answering of requests. Each is the one
place where its rule is written. -/

namespace Sys2Proof.Machine

/-! ## Notices (R188, R40) -/

/-- A notice is posted. -/
def State.post (s : State) (c : NoticeClass) (subject : Nat) : State :=
  { s with notices := s.notices.post c subject }

/-- Watch slot `k` posts its WATCH notice when it holds the position (R40). -/
def State.watchSlot (p : Pos) (s : State) (k : Fin 4) : State :=
  if s.map.watches.get k = some p then s.post .watch k.val else s

/-- Every watch slot that holds the position posts its WATCH notice, slot 0 first (R40). -/
def State.postWatch (s : State) (p : Pos) : State := fourNumbers.foldl (State.watchSlot p) s

/-! ## Completion check (R19) -/

/-- One application of the completion check. In LAYOUT and CLOSED nothing is posted and the flag keeps its
arming. -/
def State.checkCompletion (s : State) : State :=
  if s.map.phase ≠ .active then s
  else if 0 < s.map.census.plannedOpen then { s with map := { s.map with armed := true } }
  else if s.map.armed && decide (0 < s.map.census.planned) then
    let s' := s.post .campaignComplete 0
    { s' with map := { s'.map with armed := false } }
  else s

/-- The flag is armed, and the check is applied at once (R19). -/
def State.armCompletion (s : State) : State :=
  { s with map := { s.map with armed := true } }.checkCompletion

/-- The check after a change of the census: it is applied when the planned or the planned non-terminal count has
changed (R19). `old` is the census before. -/
def State.completionAfter (s : State) (old : Census) : State :=
  if s.map.census.planned = old.planned ∧ s.map.census.plannedOpen = old.plannedOpen then s
  else s.checkCompletion

/-! ## Channels -/

/-- Channel controller `n`. -/
def State.chan (s : State) (n : Fin 8) : Channel := s.chans.get n

/-- Channel controller `n` replaced. -/
def State.setChan (s : State) (n : Fin 8) (c : Channel) : State := { s with chans := s.chans.set n c }

/-- A message behind those decided before it; when 8 wait, the oldest waiting one is dropped (R99). -/
def Transmitter.enqueue (t : Transmitter) (m : Message) : Transmitter :=
  match t.sending with
  | none => { t with sending := some m }
  | some _ =>
    if t.waiting.length < Config.waitLimit then { t with waiting := t.waiting ++ [m] }
    else { t with waiting := t.waiting.drop 1 ++ [m] }

/-- An assignment message is decided for link `n` (R45, R99). -/
def State.send (s : State) (n : Fin 8) (k : MessageKind) (e : Echo) : State :=
  { s with txs := s.txs.set n ((s.txs.get n).enqueue { kind := k, echo := e }) }

/-- The seek condition of R43: a channel in IDLE with a priority level above 0 and its exhausted flag clear becomes
SEEKING and joins the waiting set. -/
def State.testSeek (s : State) (n : Fin 8) : State :=
  let c := s.chan n
  if c.state = .idle ∧ 0 < c.config.priority ∧ c.exhausted = false then
    { s with
      chans := s.chans.set n { c with state := .seeking }
      walker := { s.walker with waiting := s.walker.waiting.set n true } }
  else s

/-- The seek of channel `n`, waiting or served, is abandoned (R44, R80, R81). -/
def Walker.abandon (w : Walker) (n : Fin 8) : Walker :=
  { w with
    waiting := w.waiting.set n false
    seek :=
      match w.seek with
      | none => none
      | some k => if k.chan = n then none else some k }

/-- The seek of channel `n` is abandoned. -/
def State.abandonSeek (s : State) (n : Fin 8) : State := { s with walker := s.walker.abandon n }

/-- Every seek is abandoned and the waiting set is empty (R81). -/
def Walker.abandonAll (w : Walker) : Walker := { w with waiting := Eight.fill false, seek := none }

/-- The candidates-changed signal at one channel (R37, R78): its seek being served is renewed; its exhausted flag,
when set, is cleared, and the seek condition is tested. -/
def State.candidatesAt (s : State) (n : Fin 8) : State :=
  let s1 : State :=
    match s.walker.seek with
    | none => s
    | some k => if k.chan = n then { s with walker := { s.walker with seek := some { k with renew := true } } } else s
  if (s1.chan n).exhausted then (s1.setChan n { s1.chan n with exhausted := false }).testSeek n else s1

/-- The candidates-changed signal to all eight channels (R37). -/
def State.candidatesChanged (s : State) : State := eightNumbers.foldl State.candidatesAt s

/-! ## Tube records -/

/-- The record of tube index `i`. -/
def State.tube (s : State) (i : Nat) : Option Tube := s.map.tubes[i]?

/-- The record of tube `i` replaced, and the census moved with it (R18). -/
def TubeMap.replace (m : TubeMap) (i : Nat) (old new : Tube) : TubeMap :=
  { m with tubes := m.tubes.set i new, census := m.census.move old new }

/-- A change of one tube record, applied whole, with what a change of state or of the planned flag brings: the
census (R18), the BLOCKED notice (R38), the completion check (R19), the candidates-changed signal when the tube
enters UNTESTED or RETEST from another state (R37), and the WATCH notices of a change of state (R40), in this order
(log 4). -/
def State.changeTube (s : State) (i : Nat) (f : Tube → Tube) : State :=
  match s.tube i with
  | none => s
  | some old =>
    let new := f old
    let s1 := { s with map := s.map.replace i old new }
    let moved := decide (old.state ≠ new.state)
    let s2 := if moved && decide (new.state = .blocked) then s1.post .blocked i else s1
    let s3 := s2.completionAfter s.map.census
    let s4 := if moved && new.state.claimable then s3.candidatesChanged else s3
    if moved then s4.postWatch new.pos else s4

/-! ## Evaluation (R175, R176, R31) -/

/-- The entries of a tube, in list order, with their numbers. -/
def Store.listed (st : Store) (l : List Nat) : List (Nat × Entry) :=
  l.filterMap (fun n => (st.entry n).map (fun e => (n, e)))

/-- An entry that is FINAL or DISMISSED. -/
def Entry.settled (e : Entry) : Bool := decide (e.status = .final ∨ e.status = .dismissed)

/-- An entry that is DISPUTED or RESOLVING. -/
def Entry.inDispute (e : Entry) : Bool := decide (e.status = .disputed ∨ e.status = .resolving)

/-- The final depth of a FINAL entry with outcome DEPTH (R143). -/
def Entry.finalDepth (e : Entry) : Option Nat :=
  match e.status, e.outcome with
  | .final, some (.depth d) => some d
  | _, _ => none

/-- A FINAL entry that calls for plugging (R175): NON_QUANTIFIABLE, or a final depth at or above the plug limit. -/
def Entry.callsPlug (limit : Nat) (e : Entry) : Bool :=
  match e.status, e.outcome with
  | .final, some .nonQuantifiable => true
  | .final, some (.depth d) => limit ≤ d
  | _, _ => false

/-- The worst final depth of a list of entries (R3, R175). -/
def worstFinalDepth (l : List Entry) : Option Nat :=
  l.foldr (fun e w => depthMax e.finalDepth w) none

/-- The resulting state of an evaluation, by the three steps of R175. -/
def evaluationState (t : Tube) (limit : Nat) (l : List Entry) : TubeState :=
  if l.any Entry.inDispute then .underReview
  else if t.primaryMark && t.secondaryMark && !t.truncated && l.all Entry.settled then
    if l.any (Entry.callsPlug limit) then .plugCalled else .cleared
  else .tested

/-- A tube is evaluated (R175), and the tube map takes the result (R31): the worst final depth always, the state
only in TESTED or UNDER_REVIEW. A tube moved into PLUG_CALLED posts its notice (R176). -/
def State.evaluate (s : State) (i : Nat) : State :=
  match s.tube i with
  | none => s
  | some t =>
    let l := (s.store.listed t.entries).map Prod.snd
    let result := evaluationState t s.map.params.plugLimit l
    let s' := s.changeTube i (fun t =>
      { t with
        worstFinal := worstFinalDepth l
        state := if t.state.takesCalls then result else t.state })
    if t.state.takesCalls && decide (result = .plugCalled) then s'.post .plugCall i else s'

/-- The WATCH notices of an event on tube `i` that is no change of its state (R40). -/
def State.watchTube (s : State) (i : Nat) : State :=
  match s.tube i with
  | none => s
  | some t => s.postWatch t.pos

/-- A change of an entry's status by the analysis controller or a reopen: the entry is written, its tube evaluated
in the same step (R175), and the WATCH notices of the change of status posted (R40). -/
def State.changeStatus (s : State) (n : Nat) (e : Entry) : State :=
  ({ s with store := s.store.setEntry n e }.evaluate e.tube).watchTube e.tube

/-! ## Pool and retirement (R155, R156) -/

/-- The pool warning is judged on the free count as it stands (R155). -/
def State.judgePool (s : State) : State :=
  let low := decide (s.store.free.count ≤ s.map.params.poolLevel)
  if low && s.store.warnArmed then
    { s with store := { s.store with warnArmed := false } }.post .pool 0
  else if !low && !s.store.warnArmed then { s with store := { s.store with warnArmed := true } }
  else s

/-- A resolver seat is freed and its hold timer stopped (R167). -/
def State.freeSeat (s : State) (k : Fin 4) : State :=
  { s with seats := s.seats.set k { held := none, expiry := none } }

/-- Steps 3 to 5 of a retirement (R156): the content is discarded with the issue number kept, the place put at the
tail of the free list, and the pool warning judged. -/
def State.recycle (s : State) (n : Nat) : State :=
  let slot := { s.store.slot n with content := none }
  { s with store := { s.store.setSlot n slot with free := s.store.free.put n } }.judgePool

/-- Steps 2 to 5 of a retirement (R156): the seat of a RESOLVING entry is freed and the place goes back to the pool. A
number not in use is left alone. -/
def State.retire (s : State) (n : Nat) : State :=
  match s.store.entry n with
  | none => s
  | some e =>
    match e.holder with
    | some k => (s.freeSeat k).recycle n
    | none => s.recycle n

/-! ## The stall timer (R112 to R114) -/

/-- A timer that has been stopped: count 0 (R112). -/
def StallTimer.stop (t : StallTimer) : StallTimer := { t with mode := .stopped, count := 0 }

/-- A load (R113): with a reload value above 0 the timer runs from it, its first tick one whole period from `now`;
with reload value 0 it is stopped. -/
def StallTimer.load (t : StallTimer) (cfg : Config) (now : Nat) : StallTimer :=
  if cfg.stallReload = 0 then t.stop
  else
    { mode := .running, count := cfg.stallReload, tick := cfg.stallTick, nextTick := now + cfg.stallTick.millis }

/-- A running timer is frozen; any other is kept (R112). -/
def StallTimer.freeze (t : StallTimer) : StallTimer :=
  if t.mode = .running then { t with mode := .frozen } else t

/-- The stall timer of channel `n` is loaded. -/
def State.loadTimer (s : State) (n : Fin 8) : State :=
  let c := s.chan n
  s.setChan n { c with timer := c.timer.load c.config s.clock }

/-- The reload an accepted report makes (R114): only when its kind is among the reload events and the timer is
running. -/
def State.reloadTimer (s : State) (n : Fin 8) (isEvent : Bool) : State :=
  if isEvent && decide ((s.chan n).timer.mode = .running) then s.loadTimer n else s

/-! ## Claims (R23, R25, R46, R47) -/

/-- Some channel holds, on `face`, a claim at a distance from `p` not greater than the clearance (condition 5 of
R47, test 5 of R73). Claims on the other face are not tested. -/
def State.clearanceHit (s : State) (face : Face) (p : Pos) : Bool :=
  s.chans.toList.any (fun c =>
    match c.claim with
    | none => false
    | some k => decide (k.face = face) && k.pos.distance p ≤ s.walker.clearance)

/-- The claim rule (R47): the reason of the first condition that fails, or absent when the request is granted. -/
def State.claimReason (s : State) (n : Fin 8) (t : Tube) : Option Status :=
  if s.map.phase ≠ .active then some .phase
  else if t.state = .claimed ∨ t.state = .inTest then some .tubeBusy
  else if !t.state.claimable then some .state
  else if t.claim.isSome then some .tubeBusy
  else if (s.chan n).claim.isSome then some .channelBusy
  else if s.interlock.latch then some .interlock
  else if s.clearanceHit (s.chan n).config.face t.pos then some .clearance
  else none

/-- The claim record of a grant of tube `i` to a channel of configuration `cfg` (R46). -/
def grantClaim (cfg : Config) (i : Nat) (t : Tube) : Claim :=
  { tube := i, pos := t.pos, face := cfg.face, pass := min (t.passes + 1) 15, prior := t.state,
    farEnd := false, dataGap := false }

/-- A granted claim (R23, R44, R46, R58): the tube becomes CLAIMED with its claim field, the channel ASSIGNED with
its claim record, the last encoder count is cleared, the timer loaded and ASSIGN sent. -/
def State.grant (s : State) (n : Fin 8) (i : Nat) (t : Tube) : State :=
  let c := s.chan n
  let k := grantClaim c.config i t
  let s1 := s.changeTube i (fun t => { t with state := .claimed, claim := some n })
  let c1 := s1.chan n
  let s2 := s1.setChan n { c1 with state := .assigned, claim := some k, lastCount := none }
  (s2.loadTimer n).send n .assign k.echo

/-- The channel's side of every release (R46): the record becomes absent, the timer stops, the last encoder count
is cleared. Overtravel marks of the ended claim would change nothing and are dropped (R130; log 5), and a measurement
formed under it and not yet handed to the store is discarded (R139). -/
def Channel.dropClaim (c : Channel) : Channel :=
  { c with claim := none, timer := c.timer.stop, lastCount := none, overtravelMarks := 0, filing := none }

/-- The tube's side of a release without outcome (R25). -/
def Tube.releaseTo (prior : TubeState) (t : Tube) : Tube :=
  { t with
    claim := none
    state :=
      match t.state with
      | .claimed => prior
      | .inTest => .retest
      | other => other }

/-- A claim released without outcome (R25, R46); the channel state is set by the cause. -/
def State.releaseClaim (s : State) (n : Fin 8) : State :=
  match (s.chan n).claim with
  | none => s
  | some k => (s.setChan n (s.chan n).dropClaim).changeTube k.tube (Tube.releaseTo k.prior)

/-- Some tube holds a claim (R11). -/
def State.anyClaim (s : State) : Bool := s.map.tubes.any (fun t => t.claim.isSome)

/-! ## Link receivers (R93, R98) -/

/-- Link receiver `n`. -/
def State.link (s : State) (n : Fin 8) : Link := s.links.get n

/-- Link receiver `n` replaced. -/
def State.setLinkRx (s : State) (n : Fin 8) (l : Link) : State := { s with links := s.links.set n l }

/-- An error event at the receiver (R93): its flag is set and the count rises, staying at 255. -/
def Link.fail (l : Link) (e : LinkError) : Link :=
  { l with flags := l.flags.raise e, errors := min (l.errors + 1) 255 }

/-- An error event on link `n` (R93, R94): flag, count, and a LINK notice when the kind's report enable is set. -/
def State.linkError (s : State) (n : Fin 8) (e : LinkError) : State :=
  let s' := s.setLinkRx n ((s.link n).fail e)
  if (s.link n).enables.get e then s'.post .link n.val else s'

/-- A receiver after RESET# or CHANNEL_RESET (R98): HUNT, no frame, no report, flags, count and last fields
cleared; the three settings kept. -/
def Link.restart (l : Link) : Link :=
  { Link.powerOn with policy := l.policy, strict := l.strict, enables := l.enables }

/-! ## The command port (R180 to R184) -/

/-- A response is held and READY is high (R183). It carries the OVERRUN flag as it then stands. -/
def State.respond (s : State) (command : Byte) (status : Status) (body : List Byte) : State :=
  { s with
    port :=
      { s.port with
        mode := .responding
        received := []
        work := none
        response := some { command, status, overrun := s.port.overrun, body } } }

/-- The first byte the port sends on MISO in a transfer (R179): that of the held response in RESPONDING, otherwise 00h. -/
def Port.firstMiso (p : Port) : Byte :=
  match p.mode, p.response with
  | .responding, some r => r.frame.headD 0#8
  | _, _ => 0#8

/-- A request transfer on MISO (R179): its first byte, after which the port sends 00h. -/
def Port.request (p : Port) : Port := { p with miso := [p.firstMiso] }

/-- The response to the request of a transfer that has just ended, in which MISO carried 00h throughout (R179). -/
def State.reply (s : State) (command : Byte) (status : Status) (body : List Byte) : State :=
  { s with port := { s.port with miso := [0#8] } }.respond command status body

/-- The response of command `c`, at the end of its request transfer. The meanings give it an empty body when a check of the
command's own refuses it (DESIGN CHOICE, log 25). -/
def State.answer (s : State) (c : Command) (status : Status) (body : List Byte) : State :=
  s.reply c.code status body

/-- The response of the long command `c`, at its end (R183). -/
def State.complete (s : State) (c : Command) (status : Status) (body : List Byte) : State :=
  s.respond c.code status body

/-- A long command is in flight (R183). -/
def State.begin (s : State) (w : Work) : State :=
  { s with port := { s.port with mode := .executing, work := some w } }

/-- A long command accepted at the end of its request transfer (R180, R183). -/
def State.start (s : State) (w : Work) : State :=
  { s with port := { s.port with received := [], miso := [0#8] } }.begin w

/-- A request transfer begun in EXECUTING or RESPONDING (R184): the flag is set, and a held response carries it. -/
def Port.setOverrun (p : Port) : Port :=
  { p.request with
    overrun := true
    response := if p.mode = .responding then p.response.map (fun r => { r with overrun := true }) else p.response }

/-- The overrun of R184. -/
def State.overrun (s : State) : State := { s with port := s.port.setOverrun }

/-- A request transfer with a good frame of command `c` (R180 to R184): nothing while RESET# is low; an overrun in
EXECUTING or RESPONDING; otherwise checks 3 to 5 of R181, a refusal with an empty body, or the command `act`. -/
def State.takeRequest (s : State) (c : Command) (rq : Requester) (inRange : Bool) (act : State → State) : State :=
  if s.held then s
  else
    match s.port.mode with
    | .executing | .responding => s.overrun
    | .idle | .receiving =>
      match portRefusal c rq.role s.map.phase inRange with
      | some status => s.answer c status []
      | none => act s

/-- An event of the part that does not come through the port: nothing happens while RESET# is low (00_scope.md
section 4). -/
def State.whenRunning (s : State) (act : State → State) : State := if s.held then s else act s

/-! ## Tube names (R1) -/

/-- The tube index a tube name names, or absent (R1). -/
def TubeMap.named (m : TubeMap) : TubeName → Option Nat
  | .position p => m.at p
  | .index i => if i < m.tubes.length then some i else none
  | .other _ => none

/-- The named tube with its index, or absent: NO_TUBE. -/
def State.findNamed (s : State) (name : TubeName) : Option (Nat × Tube) :=
  match s.map.named name with
  | none => none
  | some i => (s.tube i).map (fun t => (i, t))

end Sys2Proof.Machine
end

