-- ==== Sys2Proof/Machine/Bodies.lean ====
section
/-! DEFINITION. The bodies of responses (11.4), and of those whose layout 11.4 does not give: the fields the rule
returns, in its order, in the field types of 11.1; the widths that 11.1 does not give are the model's (log 8). -/

namespace Sys2Proof.Machine

/-- A tube record, 15 bytes (11.4). -/
def tubeBody (i : Nat) (t : Tube) : List Byte :=
  byte2 i ++ t.pos.bytes ++ byte1 t.zone ++ byte1 t.state.code ++
  byte1 (flagsNat [t.planned, t.primaryMark, t.secondaryMark, t.truncated, t.plugCampaign.isSome]) ++
  absentFF (t.claim.map Fin.val) ++ byte1 t.passes ++ byte1 t.attempts ++ byte1 t.entries.length ++
  absentFF t.worstFinal ++ absentFF t.history ++ byte2 (t.plugCampaign.getD 0)

/-- A call: code 0 and FFh when absent, FFh for a code without a depth (11.4). -/
def callBody : Option Call → List Byte
  | none => byte1 0 ++ absentFF none
  | some c => byte1 c.code ++ absentFF c.depth?

/-- A final outcome: 0 absent, 1 DEPTH, 2 NON_QUANTIFIABLE, then the final depth or FFh (11.4). -/
def outcomeBody : Option FinalOutcome → List Byte
  | none => byte1 0 ++ absentFF none
  | some (.depth d) => byte1 1 ++ absentFF (some d)
  | some .nonQuantifiable => byte1 2 ++ absentFF none

/-- The measured fields of an entry with its frequency, 13 bytes: bytes 5 to 17 of an entry (11.4). -/
def measuredBody (freq : Fin 4) (m : Measured) : List Byte :=
  byte2 m.axial ++ byte1 (freq.val + 1) ++ byte1 m.extent ++ byte2 m.phase ++ byte2 m.amplitude ++
  flag1 m.saturated ++ byte1 m.depth ++ byte1 m.landmark.code ++ signed2 m.offset

/-- An entry, 31 bytes (11.4). -/
def entryBody (r : EntryRef) (e : Entry) : List Byte :=
  r.bytes ++ byte2 e.tube ++ measuredBody e.freq e.measured ++ byte1 e.sightings ++ byte1 e.firstPass ++
  byte1 e.status.code ++ callBody e.primary ++ callBody e.secondary ++ callBody e.resolution ++
  outcomeBody e.outcome ++ absentFF e.reference ++ absentFF (e.holder.map Fin.val)

/-- READ_TUBE (11.4): the tube record, then its entries in list order. -/
def readTubeBody (st : Store) (i : Nat) (t : Tube) : List Byte :=
  tubeBody i t ++ (st.listed t.entries).flatMap (fun ne => entryBody (st.refOf ne.1) ne.2)

/-- READ_ENTRY (11.4): the entry, then its tube's row, column and state. -/
def readEntryBody (s : State) (r : EntryRef) (e : Entry) : List Byte :=
  entryBody r e ++
    match s.tube e.tube with
    | none => List.replicate 3 0#8
    | some t => t.pos.bytes ++ byte1 t.state.code

/-- The configuration as READ_CHANNEL lays it out, bytes 18 to 46 (11.4). -/
def configBody (c : Config) : List Byte :=
  byte1 c.face.code ++ byte2 c.window.rowLo ++ byte2 c.window.rowHi ++ byte2 c.window.colLo ++
  byte2 c.window.colHi ++ byte1 (flagsNat c.keepouts.toList) ++ byte1 c.majorAxis.code ++
  byte1 c.startCorner.code ++ flag1 c.serpentine ++ byte1 c.mix.toNat ++
  (List.range' 0 8).map (fun k => (c.pattern >>> (8 * k)).truncate 8) ++
  (List.range' 0 2).map (fun k => (c.zones >>> (8 * k)).truncate 8) ++
  byte1 (flagsNat [c.states.untested, c.states.retest]) ++ byte1 c.priority ++ byte1 c.stallTick.code ++
  byte1 c.stallReload ++
  byte1 (flagsNat [c.reloads.enter, c.reloads.progress, c.reloads.indication, c.reloads.farEnd,
    c.reloads.heartbeat])

/-- The calibration as READ_CHANNEL lays it out, bytes 47 to 64 (11.4). -/
def calBody (c : Calibration) : List Byte :=
  byte2 c.scale ++ fourNumbers.flatMap (fun f => byte2 (c.rotation.get f) ++ byte2 (c.factor.get f))

/-- The claim fields of a channel record, bytes 4 to 10: 00h when the claim is absent (11.4). -/
def claimBody : Option Claim → List Byte
  | none => List.replicate 7 0#8
  | some k => byte2 k.tube ++ k.pos.bytes ++ byte1 k.face.code ++ byte1 k.pass ++ byte1 k.prior.code

/-- A flag of an absent claim is clear. -/
def claimFlag (f : Claim → Bool) : Option Claim → Bool
  | none => false
  | some k => f k

/-- A position, or zero bytes when it is absent. -/
def posOrZero : Option Pos → List Byte
  | none => List.replicate 2 0#8
  | some p => p.bytes

/-- READ_CHANNEL: a channel record, 65 bytes (11.4). -/
def channelBody (c : Channel) (cursor : Option Pos) : List Byte :=
  byte1 c.state.code ++ absentFF (c.prior.map ChanState.code) ++ absentFF (c.interrupted.map ChanState.code) ++
  byte1 (flagsNat [c.claim.isSome, claimFlag Claim.farEnd c.claim, claimFlag Claim.dataGap c.claim, c.exhausted,
    cursor.isSome, c.lastCount.isSome]) ++
  claimBody c.claim ++ byte1 c.timer.count ++ byte1 c.timer.mode.code ++ byte3 (c.lastCount.getD 0) ++
  posOrZero cursor ++ configBody c.config ++ calBody c.cal

/-- READ_LINK: 9 bytes (11.4). -/
def linkBody (l : Link) : List Byte :=
  byte1 l.rx.code ++ byte1 (flagsNat l.flags.toList) ++ byte1 l.errors ++ byte1 l.queue.length ++
  byte1 ((l.lastKind.map ReportKind.code).getD 0) ++ byte1 (l.lastSource.getD 0) ++ byte1 l.policy.code ++
  flag1 l.strict ++ byte1 (flagsNat l.enables.toList)

/-- READ_CENSUS: 27 bytes (11.4). -/
def censusBody (m : TubeMap) : List Byte :=
  m.census.toList.flatMap byte2 ++ byte2 m.census.plannedOpen ++ byte2 m.tubes.length ++ byte1 m.phase.code ++
  byte2 m.campaign

/-- FIND_TUBE: 6 bytes (11.4). -/
def findBody : Option Found → List Byte
  | none => List.replicate 6 0#8
  | some f => byte1 1 ++ byte2 f.index ++ f.pos.bytes ++ byte1 f.state.code

/-- A frequency's threshold and curve, 27 bytes: point count 0 for not loaded, unused points 00h (11.4). 11.4 gives this
form to READ_STATUS alone; that LOAD_CURVE's response uses it is a DESIGN CHOICE (log 8). -/
def freqBody (f : FreqSettings) : List Byte :=
  let points := f.curve.getD []
  byte2 f.threshold ++ byte1 points.length ++
  (points.flatMap (fun p => byte2 p.phase ++ byte1 p.depth) ++ List.replicate 24 0#8).take 24

/-- The time left before a hold timer expires, in whole seconds, rounded up (R167). -/
def secondsLeft (clock expiry : Nat) : Nat := (expiry - clock + 999) / 1000

/-- A seat in READ_STATUS: presence, entry reference, time left (11.4). -/
def seatBody (clock : Nat) (seat : Seat) : List Byte :=
  match seat.held with
  | none => List.replicate 6 0#8
  | some r => byte1 1 ++ r.bytes ++ byte2 (secondsLeft clock (seat.expiry.getD clock))

/-- The position a walk index names is given by the caller; bytes 3 to 12 of READ_STATUS (11.4). -/
def seekBody (position : Seek → Pos) : Option Seek → List Byte
  | none => byte1 0xFF ++ List.replicate 9 0#8
  | some k =>
    byte1 k.chan.val ++ byte2 k.index ++ (position k).bytes ++ byte4 k.examined ++
    byte1 (flagsNat [k.renew, k.request.isSome])

/-- READ_STATUS: 170 bytes (11.4). The report engine is handling a report while it has one in hand (R101; log 13). -/
def statusBody (s : State) (position : Seek → Pos) : List Byte :=
  byte1 s.map.phase.code ++ byte2 s.map.campaign ++ seekBody position s.walker.seek ++
  byte1 (flagsNat s.walker.waiting.toList) ++ byte1 s.walker.clearance ++ byte1 s.engine.val ++ flag1 s.hand.isSome ++
  flag1 s.interlock.low ++ flag1 s.interlock.latch ++ s.freqs.toList.flatMap freqBody ++
  byte2 s.store.free.count ++ byte2 s.store.inUse.length ++ flag1 (!s.store.warnArmed) ++
  s.seats.toList.flatMap (seatBody s.clock) ++ byte1 s.notices.pending.length ++
  byte1 (flagsNat [s.notices.overflow, s.attn]) ++ byte1 s.notices.floor ++ s.notices.levels.toList.flatMap byte1

/-- A tube's position and state after a presence byte, as the item of a notice (11.4). -/
def tubeItem : Option Tube → List Byte
  | none => List.replicate 4 0#8
  | some t => byte1 1 ++ t.pos.bytes ++ byte1 t.state.code

/-- A watched position and the state of its tube after a presence byte, as the item of a WATCH notice (11.4). A slot
that holds a position where no tube stands, which no run reaches, reads as empty (log 14). -/
def watchItem (s : State) (p : Pos) : List Byte :=
  match (s.map.at p).bind s.tube with
  | none => List.replicate 4 0#8
  | some t => byte1 1 ++ p.bytes ++ byte1 t.state.code

/-- The item of a notice, four bytes, read as the part stands (R192, 11.4). -/
def noticeItem (s : State) (n : Notice) : List Byte :=
  match n.cls with
  | .blocked | .plugCall | .dispute => tubeItem (s.tube n.subject)
  | .watch =>
    match s.map.watches.get (fourOf n.subject) with
    | none => List.replicate 4 0#8
    | some p => watchItem s p
  | .stall | .exhausted =>
    let c := s.chan (eightOf n.subject)
    byte1 c.state.code ++ flag1 c.claim.isSome ++ posOrZero (c.claim.map Claim.pos)
  | .link =>
    let l := s.link (eightOf n.subject)
    byte1 l.rx.code ++ byte1 l.errors ++ List.replicate 2 0#8
  | .holdExpired => presence 3 EntryRef.bytes (s.seats.get (fourOf n.subject)).held
  | .interlock => flag1 s.interlock.low ++ flag1 s.interlock.latch ++ List.replicate 2 0#8
  | .pool => byte2 s.store.free.count ++ List.replicate 2 0#8
  | .campaignComplete => byte2 s.map.census.plannedOpen ++ List.replicate 2 0#8

/-- TAKE_NOTICE: 9 bytes; class FFh with no subject and no item when the set is empty (11.4). -/
def noticeBody (s : State) : Option Notice → List Byte
  | none => byte1 0xFF ++ List.replicate 7 0#8 ++ flag1 s.notices.overflow
  | some n =>
    byte1 n.cls.number ++ byte2 n.subject ++ byte1 (s.notices.levels.get n.cls) ++ noticeItem s n ++
    flag1 s.notices.overflow

/-- A keep-out region in the response to SET_KEEPOUT (R68): the defined flag, then its bounds, which an undefined region
answers as 00h (DESIGN CHOICE, log 24). -/
def regionBody : Option Rect → List Byte
  | none => List.replicate 9 0#8
  | some r => byte1 1 ++ byte2 r.rowLo ++ byte2 r.rowHi ++ byte2 r.colLo ++ byte2 r.colHi

/-- The nine campaign parameters in the response to SET_CAMPAIGN (R8). -/
def paramsBody (p : Params) : List Byte :=
  byte2 p.length ++ byte1 p.plugLimit ++ byte1 p.tolerance ++ byte1 p.mergeWindow ++ byte1 p.growth ++
  byte1 p.attemptLimit ++ byte2 p.overtravel ++ byte1 p.holdLimit ++ byte2 p.poolLevel

/-- The four watch slots in the response to SET_WATCH (R39). -/
def watchesBody (w : Four (Option Pos)) : List Byte := w.toList.flatMap (presence 2 Pos.bytes)

end Sys2Proof.Machine
end

