-- ==== Sys2Proof/Machine/Reduction.lean ====
section
/-! DEFINITION. Measurement reduction (chapter 7): from an INDICATION to a located, depth-estimated measurement. -/

namespace Sys2Proof.Machine

/-- What the reduction of an indication comes to (R128): a quiet discard, an overtravel, or a measurement. -/
inductive Reduced where
  | discarded
  | overtravel
  | measured (m : Measurement)
deriving DecidableEq, Repr

/-- A count of encoder units in whole millimetres, half a millimetre rounded up (R129, R132). -/
def millimetres (count scale : Nat) : Nat := (count * scale + 500) / 1000

/-- Stage 3 (R131): the axial position of a travel from a face. -/
def axialOf (face : Face) (length travel : Nat) : Nat :=
  match face with
  | .inlet => travel
  | .outlet => length - travel

/-- Stage 4 (R132): the extent, limited to 255 mm. -/
def extentOf (count scale : Nat) : Nat := min (millimetres count scale) 255

/-- Stage 5 (R133): the corrected phase. -/
def phaseOf (raw rotation : Nat) : Nat :=
  let p := (raw * 225 + 128) / 256 + rotation
  if p ≥ 3600 then p - 3600 else p

/-- Stage 6 before its limit (R134). -/
def amplitudeRaw (raw factor : Nat) : Nat := (raw * factor + 512) / 1024

/-- A quotient rounded to the nearest whole number, a half away from zero (R137). -/
def roundAway (num : Int) (den : Nat) : Int :=
  let q : Nat := (2 * num.natAbs + den) / (2 * den)
  if num < 0 then -(q : Int) else q

/-- The depth between two points of a curve (R137). -/
def interpolate (a b : CurvePoint) (p : Nat) : Nat :=
  ((a.depth : Int) + roundAway (((b.depth : Int) - a.depth) * ((p : Int) - a.phase)) (b.phase - a.phase)).toNat

/-- The depth of a curve from its first point on (R136): the first point's depth at or below its phase, the last
point's at or above its phase, and between two points their interpolation. -/
def curveDepth (p : Nat) : List CurvePoint → Option Nat
  | [] => none
  | [a] => some a.depth
  | a :: b :: t =>
    if p ≤ a.phase then some a.depth
    else if p < b.phase then some (interpolate a b p)
    else curveDepth p (b :: t)

/-- Stage 8 (R136): the instrument depth at a corrected phase. Where no curve is loaded, which no run reaches
(R127), it is the free value `Config.depthWithoutCurve`, within 0–100 (R140; log 6). -/
def depthOf (f : FreqSettings) (phase : Nat) : Nat :=
  ((f.curve.bind (curveDepth phase))).getD (Config.depthWithoutCurve phase % 101)

/-- The landmarks with their axial positions, inlet first (R138): TSI, the supports from `n` on, TSO. -/
def supportsFrom (n : Nat) : List Nat → List (Landmark × Nat)
  | [] => []
  | p :: t => (.support n, p) :: supportsFrom (n + 1) t

/-- The landmark table in force (R7, R138). -/
def landmarkTable (supports : List Nat) (length : Nat) : List (Landmark × Nat) :=
  (.tsi, 0) :: supportsFrom 1 supports ++ [(.tso, length)]

/-- The absolute difference of two axial positions. -/
def apart (a b : Nat) : Nat := max a b - min a b

/-- The nearest landmark, the first of two at one distance (R138). -/
def nearestLandmark (axial : Nat) : Landmark × Nat → List (Landmark × Nat) → Landmark × Nat
  | best, [] => best
  | best, l :: t => nearestLandmark axial (if apart l.2 axial < apart best.2 axial then l else best) t

/-- Stage 9 (R138): the location of an axial position. -/
def locate (supports : List Nat) (length axial : Nat) : Landmark × Int :=
  let best := nearestLandmark axial (.tsi, 0) ((landmarkTable supports length).drop 1)
  (best.1, (axial : Int) - best.2)

/-- The reduction of an indication under a claim and a calibration (R128 to R139). -/
def reduce (params : Params) (supports : List Nat) (freqs : Four FreqSettings) (k : Claim) (cal : Calibration)
    (x : Indication) : Reduced :=
  if x.freq < 1 ∨ 4 < x.freq ∨ 4095 < x.phaseRaw then .discarded
  else
    let f := fourOf (x.freq - 1)
    let travel := millimetres x.count cal.scale
    if params.length + params.overtravel < travel then .overtravel
    else
      let axial := axialOf k.face params.length (min travel params.length)
      let phase := phaseOf x.phaseRaw (cal.rotation.get f)
      let raw := amplitudeRaw x.amplitudeRaw (cal.factor.get f)
      let amplitude := min raw 4095
      if amplitude < (freqs.get f).threshold then .discarded
      else
        let location := locate supports params.length axial
        .measured
          { tube := k.tube
            pass := k.pass
            freq := f
            measured :=
              { axial
                extent := extentOf x.extentCount cal.scale
                phase
                amplitude
                saturated := 4095 < raw
                depth := depthOf (freqs.get f) phase
                landmark := location.1
                offset := location.2 } }

end Sys2Proof.Machine
end

