-- ==== Sys2Proof/Machine/Filing.lean ====
section
/-! DEFINITION. Filing a measurement in the indication store (chapter 8): match, merge and peak hold, reopen,
creation, the full list, the empty pool. -/

namespace Sys2Proof.Machine

/-- The order of a tube's list (R145): by axial position, then by frequency. -/
def Entry.before (a b : Entry) : Bool :=
  a.measured.axial < b.measured.axial || (a.measured.axial == b.measured.axial && a.freq.val < b.freq.val)

/-- A list with entry number `n` at its sorted place (R145, R151). -/
def insertEntry (st : Store) (n : Nat) (e : Entry) : List Nat → List Nat
  | [] => [n]
  | m :: t =>
    match st.entry m with
    | none => m :: insertEntry st n e t
    | some f => if e.before f then n :: m :: t else m :: insertEntry st n e t

/-- The entry of the measurement's frequency nearest to its axial position, the earlier in the list of two at one
distance (R147). -/
def nearestEntry (m : Measurement) : List (Nat × Entry) → Option (Nat × Entry)
  | [] => none
  | ne :: t =>
    match nearestEntry m t with
    | none => if ne.2.freq = m.freq then some ne else none
    | some best =>
      if ne.2.freq = m.freq ∧
          apart ne.2.measured.axial m.measured.axial ≤ apart best.2.measured.axial m.measured.axial
      then some ne else some best

/-- The match of a measurement (R147): the nearest entry of its frequency, within the merge window. -/
def matchEntry (st : Store) (window : Nat) (l : List Nat) (m : Measurement) : Option (Nat × Entry) :=
  match nearestEntry m (st.listed l) with
  | none => none
  | some ne => if apart ne.2.measured.axial m.measured.axial ≤ window then some ne else none

/-- The entry has grown by its new instrument depth (R150). -/
def Entry.grown (growth depth : Nat) (e : Entry) : Bool :=
  match e.status, e.outcome, e.reference with
  | .final, some (.depth d), _ => d + growth ≤ depth
  | .dismissed, _, some r => r + growth ≤ depth
  | _, _, _ => false

/-- A reopened entry (R150): NEW, with no call, no outcome and no reference depth. -/
def Entry.reopened (e : Entry) : Entry :=
  { e with
    status := .new, primary := none, secondary := none, resolution := none, outcome := none, reference := none }

/-- The list of tube `i` replaced. -/
def State.setList (s : State) (i : Nat) (l : List Nat) : State :=
  s.changeTube i (fun t => { t with entries := l })

/-- A merge (R148 to R150): the sightings rise, a strictly stronger measurement replaces the measured fields and
moves the entry to its sorted place, and an entry that has grown is reopened. -/
def State.merge (s : State) (t : Tube) (m : Measurement) (n : Nat) (e : Entry) : State :=
  let e1 := { e with sightings := min (e.sightings + 1) 15 }
  if e.measured.amplitude < m.measured.amplitude then
    let e2 := { e1 with measured := m.measured }
    let s1 := { s with store := s.store.setEntry n e2 }
    let s2 :=
      if e.measured.axial = m.measured.axial then s1
      else s1.setList m.tube (insertEntry s1.store n e2 (t.entries.erase n))
    if e.grown s.map.params.growth m.measured.depth then s2.changeStatus n e2.reopened else s2
  else { s with store := s.store.setEntry n e1 }

/-- The entry a creation makes (R151). -/
def newEntry (m : Measurement) : Entry :=
  { tube := m.tube, freq := m.freq, measured := m.measured, sightings := 1, firstPass := m.pass, status := .new,
    primary := none, secondary := none, resolution := none, outcome := none, reference := none, holder := none }

/-- A creation (R151): the entry at the head of the free list is taken with its issue number raised, filled and
inserted; the pool warning is judged and the WATCH notices are posted. -/
def State.create (s : State) (l : List Nat) (m : Measurement) : State :=
  match s.store.free.take with
  | none => s
  | some (n, rest) =>
    let e := newEntry m
    let slot : PoolSlot := { issue := ((s.store.slot n).issue + 1) % 256, content := some e }
    let st := { s.store.setSlot n slot with free := rest }
    let s1 := { s with store := st }.setList m.tube (insertEntry st n e l)
    s1.judgePool.watchTube m.tube

/-- The tube's truncated flag is set (R154). -/
def State.truncate (s : State) (i : Nat) : State := s.changeTube i (fun t => { t with truncated := true })

/-- The NEW entry of smallest instrument depth, the first of equals (R152). -/
def shallowestNew : List (Nat × Entry) → Option (Nat × Entry)
  | [] => none
  | ne :: t =>
    match shallowestNew t with
    | none => if ne.2.status = .new then some ne else none
    | some best =>
      if ne.2.status = .new ∧ ne.2.measured.depth ≤ best.2.measured.depth then some ne else some best

/-- The list-full rule (R152): a deeper measurement replaces the shallowest NEW entry; otherwise it is discarded.
In both cases the tube is truncated. -/
def State.listFull (s : State) (t : Tube) (m : Measurement) : State :=
  match shallowestNew (s.store.listed t.entries) with
  | none => s.truncate m.tube
  | some (n, e) =>
    if e.measured.depth < m.measured.depth then
      let l := t.entries.erase n
      let s1 := ((s.setList m.tube l).retire n).watchTube m.tube
      (s1.create l m).truncate m.tube
    else s.truncate m.tube

/-- A measurement is filed against its tube's list, by the order of R146. -/
def State.fileMeasurement (s : State) (m : Measurement) : State :=
  match s.tube m.tube with
  | none => s
  | some t =>
    match matchEntry s.store s.map.params.mergeWindow t.entries m with
    | some (n, e) => s.merge t m n e
    | none =>
      if Config.listLimit ≤ t.entries.length then s.listFull t m
      else if s.store.free.count = 0 then (s.truncate m.tube).post .pool 0
      else s.create t.entries m

end Sys2Proof.Machine
end

