-- ==== Sys2Proof/Machine/Reports.lean ====
section
/-! DEFINITION. Reports and marks (chapters 5 and 6): REPORT_TAKE, DATA_GAP_MARK, OVERTRAVEL_MARK. -/

namespace Sys2Proof.Machine

/-! ## Judging a report (R102, R103) -/

/-- The working state of a channel (R102). -/
def Channel.working (c : Channel) : ChanState :=
  match c.state, c.prior with
  | .stalled, some p => p
  | .halted, some .stalled => c.interrupted.getD .halted
  | .halted, some p => p
  | state, _ => state

/-- The table of R102: the kinds accepted in a working state. -/
def acceptsKind (w : ChanState) (k : ReportKind) : Bool :=
  match k, w with
  | .enter, .assigned => true
  | .progress, .probing | .indication, .probing | .farEnd, .probing | .exit, .probing | .obstructed, .probing => true
  | .heartbeat, .idle | .heartbeat, .seeking | .heartbeat, .assigned | .heartbeat, .probing => true
  | _, _ => false

/-- The channel accepts a report (R102): its kind is accepted in the working state, and for every kind but
HEARTBEAT its echo matches the claim (R103). -/
def Channel.accepts (c : Channel) (r : Report) : Bool :=
  acceptsKind c.working r.kind &&
    (decide (r.kind = .heartbeat) ||
      match c.claim with
      | none => false
      | some k => r.echoMatches k)

/-- The kind is among the reload events of the channel (R114). -/
def ReloadEvents.holds (e : ReloadEvents) : ReportKind → Bool
  | .enter => e.enter
  | .progress => e.progress
  | .indication => e.indication
  | .farEnd => e.farEnd
  | .heartbeat => e.heartbeat
  | .exit | .obstructed => false

/-- The stall timer is reloaded by an accepted report of this kind (R114). -/
def State.reloadFor (s : State) (n : Fin 8) (k : ReportKind) : State :=
  s.reloadTimer n ((s.chan n).config.reloads.holds k)

/-! ## The report kinds (R104 to R108) -/

/-- ENTER at the channel (R104): ASSIGNED, or the ASSIGNED that a stall or a halt interrupted, becomes PROBING. -/
def Channel.enterTube (c : Channel) : Channel :=
  match c.state, c.prior with
  | .assigned, _ => { c with state := .probing }
  | .stalled, some .assigned => { c with prior := some .probing }
  | .halted, some .assigned => { c with prior := some .probing }
  | .halted, some .stalled => { c with interrupted := some .probing }
  | _, _ => c

/-- The tube at ENTER (R24): IN_TEST, both review marks clear. -/
def Tube.enterTest (t : Tube) : Tube := { t with state := .inTest, primaryMark := false, secondaryMark := false }

/-- An accepted ENTER (R104, R24). -/
def State.takeEnter (s : State) (n : Fin 8) (k : Claim) : State :=
  ((s.setChan n (s.chan n).enterTube).changeTube k.tube Tube.enterTest).reloadFor n .enter

/-- An accepted PROGRESS (R105): a new count is kept and reloads the timer; the same count changes nothing. -/
def State.takeProgress (s : State) (n : Fin 8) (count : Nat) : State :=
  let c := s.chan n
  if c.lastCount = some count then s
  else (s.setChan n { c with lastCount := some count }).reloadFor n .progress

/-- A measurement in hand (R139; log 13): it waits at the channel whose claim it was formed under, and the engine goes
on handling its report. -/
def State.holdMeasurement (s : State) (n : Fin 8) (m : Measurement) : State :=
  { s.setChan n { s.chan n with filing := some m } with hand := some (.filing n) }

/-- An accepted INDICATION (R106, R128, R139): the timer is reloaded first, then the indication is reduced under the
claim and the calibration; an overtravel hands a mark to the channel, a measurement is handed to the store at once, or
stays in hand until the next REPORT_TAKE. -/
def State.takeIndication (s : State) (n : Fin 8) (k : Claim) (x : Indication) (extent : TakeExtent) : State :=
  let s1 := s.reloadFor n .indication
  match reduce s.map.params (s.map.landmarks.getD []) s.freqs k (s.chan n).cal x with
  | .discarded => s1
  | .overtravel =>
    let c := s1.chan n
    s1.setChan n { c with overtravelMarks := c.overtravelMarks + 1 }
  | .measured m =>
    match extent with
    | .whole => s1.fileMeasurement m
    | .moment => s1.holdMeasurement n m

/-- An accepted FAR_END (R107). -/
def State.takeFarEnd (s : State) (n : Fin 8) (k : Claim) : State :=
  let c := s.chan n
  (s.setChan n { c with claim := some { k with farEnd := true } }).reloadFor n .farEnd

/-! ## The end of a pass (R26 to R29, R110, R111) -/

/-- The four pass outcomes (R26). -/
inductive PassOutcome where
  | complete
  | gap
  | short
  | obstructed
deriving DecidableEq, Repr

/-- The outcome of an EXIT, from the claim's two flags (R110). -/
def exitOutcome (k : Claim) : PassOutcome :=
  if k.farEnd then (if k.dataGap then .gap else .complete) else .short

/-- The tube record after a pass outcome (R27 to R29). -/
def Tube.afterPass (limit : Nat) (o : PassOutcome) (t : Tube) : Tube :=
  match o with
  | .complete => { t with claim := none, state := .tested, passes := min (t.passes + 1) 15 }
  | .gap => { t with claim := none, state := .retest }
  | .short | .obstructed =>
    { t with
      claim := none
      attempts := t.attempts + 1
      state := if limit ≤ t.attempts + 1 then .blocked else .retest }

/-- A pass outcome at the tube map (R26): the claim field becomes absent, the outcome is applied, and COMPLETE is
followed by an evaluation (R27). -/
def State.passOutcome (s : State) (i : Nat) (o : PassOutcome) : State :=
  let s' := s.changeTube i (Tube.afterPass s.map.params.attemptLimit o)
  if o = .complete then s'.evaluate i else s'

/-- The channel state after a pass end or an ABANDON (R59, R111): a HALTED channel stays HALTED with prior state
IDLE; one in ASSIGNED, PROBING or STALLED becomes IDLE. -/
def Channel.endPass (c : Channel) : Channel :=
  match c.state with
  | .halted => { c.dropClaim with prior := some .idle, interrupted := none }
  | .assigned | .probing | .stalled => { c.dropClaim with state := .idle, prior := none, interrupted := none }
  | .off | .idle | .seeking => c.dropClaim

/-- A pass end (R111): the outcome at the tube map, the claim dropped, the new channel state, and the seek
condition of a channel that became IDLE. -/
def State.passEnd (s : State) (n : Fin 8) (k : Claim) (o : PassOutcome) : State :=
  let s1 := s.passOutcome k.tube o
  (s1.setChan n (s1.chan n).endPass).testSeek n

/-- The effects of an accepted report (R104 to R111). A pass event needs the claim its echo was matched against. -/
def State.takeAccepted (s : State) (n : Fin 8) (r : Report) (extent : TakeExtent) : State :=
  match r.kind, (s.chan n).claim with
  | .heartbeat, _ => s.reloadFor n .heartbeat
  | .enter, some k => s.takeEnter n k
  | .progress, some _ => s.takeProgress n r.encoderCount
  | .indication, some k => s.takeIndication n k r.indication extent
  | .farEnd, some k => s.takeFarEnd n k
  | .exit, some k => s.passEnd n k (exitOutcome k)
  | .obstructed, some k => s.passEnd n k .obstructed
  | _, none => s

/-- A report handed to its channel (R101): an accepted one has its effects, a refused one raises SEQUENCE on its
link. -/
def State.handleReport (s : State) (link : Fin 8) (r : Report) (extent : TakeExtent) : State :=
  if (s.chan r.chan).accepts r then s.takeAccepted r.chan r extent else s.linkError link .sequence

/-! ## The report engine (R100) -/

/-- The links in the order the engine looks at them: from the one after the pointer round to the pointer itself. -/
def engineOrder (pointer : Fin 8) : List (Fin 8) :=
  (List.range' 1 8).map (fun k => eightOf (pointer.val + k))

/-- The link the engine chooses: the first in its order whose queue holds a report (R100). -/
def State.engineChoice (s : State) : Option (Fin 8) :=
  (engineOrder s.engine).find? (fun n => !(s.link n).queue.isEmpty)

/-- The hand-over of the measurement that waits at channel `n` (R139): filed, unless the claim it was formed under has
been released and the measurement with it. -/
def State.handOver (s : State) (n : Fin 8) : State :=
  let c := s.chan n
  match c.filing with
  | none => s
  | some m => (s.setChan n { c with filing := none }).fileMeasurement m

/-- The report in hand goes on (R101; log 13): one taken reaches its channel, and a measurement it forms there the store
too when the operation is carried to its end; a measurement in hand reaches the store. -/
def State.goOn (s : State) (h : Hand) (extent : TakeExtent) : State :=
  let s1 := { s with hand := none }
  match h with
  | .taken link r => s1.handleReport link r extent
  | .filing n => s1.handOver n

/-- The engine takes the oldest report of the link it chooses and sets its pointer (R100), and goes on with it at once
when the operation is carried out whole. While it handles a report it takes no other and goes on with that one (R101;
log 13). -/
def State.reportTake (s : State) (extent : TakeExtent) : State :=
  match s.hand with
  | some h => s.goOn h extent
  | none =>
    match s.engineChoice with
    | none => s
    | some n =>
      match (s.link n).queue with
      | [] => s
      | r :: rest =>
        let s1 := { s.setLinkRx n { s.link n with queue := rest } with engine := n }
        match extent with
        | .whole => s1.handleReport n r .whole
        | .moment => { s1 with hand := some (.taken n r) }

/-! ## Marks (R91, R109, R130) -/

/-- The data gap flag of the claim held is set (R109); without a claim nothing changes. -/
def Channel.setGap (c : Channel) : Channel :=
  { c with claim := c.claim.map (fun k => { k with dataGap := true }) }

/-- A data gap mark on its way reaches channel `n` (R91). -/
def State.dataGapMark (s : State) (n : Fin 8) : State :=
  let c := s.chan n
  if c.gapMarks = 0 then s else s.setChan n { c.setGap with gapMarks := c.gapMarks - 1 }

/-- An overtravel mark of the present claim reaches channel `n` (R130). -/
def State.overtravelMark (s : State) (n : Fin 8) : State :=
  let c := s.chan n
  if c.overtravelMarks = 0 then s else s.setChan n { c.setGap with overtravelMarks := c.overtravelMarks - 1 }

/-- REPORT_TAKE (R101), as far as `extent` says (DESIGN CHOICE, log 13). -/
def execReportTake (s : State) (extent : TakeExtent := .whole) : Host.Outcome State Fault Refusal :=
  .next (s.whenRunning (fun s => s.reportTake extent))

/-- DATA_GAP_MARK (R91). -/
def execDataGapMark (ch : Fin 8) (s : State) : Host.Outcome State Fault Refusal :=
  .next (s.whenRunning (fun s => s.dataGapMark ch))

/-- OVERTRAVEL_MARK (R130). -/
def execOvertravelMark (ch : Fin 8) (s : State) : Host.Outcome State Fault Refusal :=
  .next (s.whenRunning (fun s => s.overtravelMark ch))

end Sys2Proof.Machine
end

