-- ==== Sys2Proof/Machine/Resets.lean ====
section
/-! DEFINITION. The whole-part resets (00_scope.md section 4): POWER_ON, RESET, RESET_END. -/

namespace Sys2Proof.Machine

/-- POWER_ON: every block takes its power-on state (R20, R63, R83, R98, R100, R124, R141, R158, R178, R185, R193),
and the part is held until the line rises. The clock and the queue are the model's own and go on. -/
def State.powerOn (s : State) : State :=
  { State.reset with clock := s.clock, held := true, pending := s.pending }

/-- A channel controller at RESET# (R64, R124): OFF without claim, its configuration and calibration kept; marks on
their way have nothing left to mark (log 5), and a measurement in hand is discarded with its claim (R139; log 13). -/
def Channel.afterReset (c : Channel) : Channel :=
  { c.dropClaim with state := .off, prior := none, interrupted := none, exhausted := false, gapMarks := 0, filing := none }

/-- The tube of a claim that RESET# releases (R21, R25). -/
def State.releaseTube (s : State) (c : Channel) : State :=
  match c.claim with
  | none => s
  | some k => s.changeTube k.tube (Tube.releaseTo k.prior)

/-- A held entry that returns to the disputed ones: no holder and no resolution call (R170, R171, R178). -/
def Entry.returned (e : Entry) : Entry := { e with status := .disputed, holder := none, resolution := none }

/-- A RESOLVING entry becomes DISPUTED (R178); any other is left. -/
def State.returnIfResolving (s : State) (n : Nat) : State :=
  match s.store.entry n with
  | none => s
  | some e => if e.status = .resolving then s.changeStatus n e.returned else s

/-- The emptied notice set of RESET# (R193): levels and floor kept. -/
def NoticeUnit.emptied (u : NoticeUnit) : NoticeUnit := { u with pending := [], overflow := false }

/-- What RESET# does to the blocks themselves, before the releases post their notices (R64, R83, R98 to R100, R124,
R178, R185, R193). The echoes of the claims held are kept for the CANCEL messages of the reset's end. A report in hand
is lost with the emptied queues: all it has done is at its channel, which is reset (R101; log 13). -/
def State.resetBlocks (s : State) : State :=
  { s with
    held := true
    cancels := s.chans.map (fun c => c.claim.map Claim.echo)
    seats := Four.fill { held := none, expiry := none }
    chans := s.chans.map Channel.afterReset
    walker := { s.walker.abandonAll with cursors := Eight.fill none }
    links := s.links.map Link.restart
    txs := Eight.fill Transmitter.quiet
    engine := 7
    hand := none
    interlock := Interlock.clear
    port := Port.clear
    notices := s.notices.emptied }

/-- RESET# in effect (R21, R41, R64, R159, R178): the blocks reset, every claim released at its tube, every RESOLVING
entry returned, the completion check armed and applied in ACTIVE, the pool warning armed and judged. -/
def State.resetPart (s : State) : State :=
  let s1 := s.chans.toList.foldl State.releaseTube s.resetBlocks
  let s2 := s1.store.inUse.foldl State.returnIfResolving s1
  let s3 := if s2.map.phase = .active then s2.armCompletion else s2
  { s3 with store := { s3.store with warnArmed := true } }.judgePool

/-- The CANCEL of channel `n` at the end of a reset (R64). -/
def State.sendCancel (s : State) (n : Fin 8) : State :=
  match s.cancels.get n with
  | none => s
  | some e => s.send n .cancel e

/-- The end of a reset (00_scope.md section 4, R64). -/
def State.resetEnd (s : State) : State :=
  { eightNumbers.foldl State.sendCancel s with held := false, cancels := Eight.fill none }

/-- POWER_ON (R20). -/
def execPowerOn (s : State) : Host.Outcome State Fault Refusal := .next s.powerOn

/-- RESET (R21). A line that is already low starts no second reset (log 10). -/
def execReset (s : State) : Host.Outcome State Fault Refusal := .next (if s.held then s else s.resetPart)

/-- RESET_END (R64). Without a reset in effect nothing ends (log 1). -/
def execResetEnd (s : State) : Host.Outcome State Fault Refusal := .next (if s.held then s.resetEnd else s)

end Sys2Proof.Machine
end

