-- ==== Sys2Proof/Machine/Analysis.lean ====
section
/-! DEFINITION. Dual analysis and resolution (chapter 9): SUBMIT_CALL, REVIEW_DONE, TAKE_ENTRY, RESOLVE_ENTRY,
RELEASE_ENTRY, HOLD_TIMER_EXPIRY. -/

namespace Sys2Proof.Machine

/-- The state of tube `i` as a response carries it. -/
def State.tubeStateByte (s : State) (i : Nat) : List Byte :=
  match s.tube i with
  | none => byte1 0
  | some t => byte1 t.state.code

/-! ## Calls and comparison (R163 to R166) -/

/-- The entry settled FINAL with an outcome (R165, R169). -/
def Entry.finalize (e : Entry) (o : FinalOutcome) : Entry :=
  { e with status := .final, outcome := some o, reference := none }

/-- The entry settled DISMISSED, its instrument depth as the reference (R165, R169). -/
def Entry.dismiss (e : Entry) : Entry :=
  { e with status := .dismissed, outcome := none, reference := some e.measured.depth }

/-- The entry left in dispute (R165). -/
def Entry.dispute (e : Entry) : Entry := { e with status := .disputed, outcome := none, reference := none }

/-- The comparison of two calls under the agreement tolerance (R165). -/
def Entry.compare (e : Entry) (tolerance : Nat) : Call → Call → Entry
  | .noneFound, .noneFound => e.dismiss
  | .geometry, .geometry => e.dismiss
  | .depth a, .depth b => if apart a b ≤ tolerance then e.finalize (.depth (max a b)) else e.dispute
  | .nonQuantifiable, .nonQuantifiable => e.finalize .nonQuantifiable
  | _, _ => e.dispute

/-- A call stored as that of a role (R164); only the two analysts submit calls (R182). -/
def Entry.storeCall (e : Entry) (role : Role) (c : Call) : Entry :=
  match role with
  | .primary => { e with primary := some c }
  | .secondary => { e with secondary := some c }
  | _ => e

/-- The entry after an accepted SUBMIT_CALL (R164). -/
def Entry.afterCall (e : Entry) (tolerance : Nat) (role : Role) (c : Call) : Entry :=
  let e1 := e.storeCall role c
  match e1.primary, e1.secondary with
  | some p, some q => e1.compare tolerance p q
  | _, _ => { e1 with status := .oneCall }

/-- The statuses in which an entry takes a call (check 2 of R163). -/
def EntryStatus.takesCall : EntryStatus → Bool
  | .new | .oneCall | .disputed => true
  | .resolving | .final | .dismissed => false

/-- The call takes effect at entry `n` (R164, R166): a change of status is evaluated and watched, and a DISPUTE notice
posted when ONE_CALL became DISPUTED. -/
def State.applyCall (s : State) (n : Nat) (e e' : Entry) : State :=
  if e'.status = e.status then { s with store := s.store.setEntry n e' }
  else if e.status = .oneCall ∧ e'.status = .disputed then (s.post .dispute e.tube).changeStatus n e'
  else s.changeStatus n e'

/-- The checks and effects of SUBMIT_CALL (R144, R163, R164). -/
def State.submitCall (s : State) (role : Role) (ref : EntryRef) (c : Call) : State :=
  match s.store.resolve ref with
  | none => s.answer .submitCall .noEntry []
  | some e =>
    match s.tube e.tube with
    | none => s.answer .submitCall .state []
    | some t =>
      if !t.state.takesCalls then s.answer .submitCall .state []
      else if !e.status.takesCall then s.answer .submitCall .state []
      else
        let e' := e.afterCall s.map.params.tolerance role c
        let s' := s.applyCall ref.number e e'
        s'.answer .submitCall .ok (byte1 e'.status.code ++ s'.tubeStateByte e.tube)

/-- The role a request carries, once it has passed check 3 of R181. -/
def Requester.roleName (rq : Requester) : Role := (roleOf rq.role).getD .planner

/-- SUBMIT_CALL (R163, R164). -/
def execSubmitCall (rq : Requester) (ref : EntryRef) (code depth : Nat) (s : State) :
    Host.Outcome State Fault Refusal :=
  .next (s.takeRequest .submitCall rq (ref.inRange && (callOf code depth).isSome)
    (fun s => s.submitCall rq.roleName ref ((callOf code depth).getD .noneFound)))

/-! ## Review marks (R174) -/

/-- The call of a role. -/
def Entry.callOf (e : Entry) : Role → Option Call
  | .primary => e.primary
  | .secondary => e.secondary
  | _ => none

/-- Every entry not FINAL or DISMISSED carries a call of the role (check 2 of R174). -/
def Store.callsComplete (st : Store) (l : List Nat) (role : Role) : Bool :=
  (st.listed l).all (fun ne => ne.2.settled || (ne.2.callOf role).isSome)

/-- A tube record at an accepted REVIEW_DONE (R174). -/
def Tube.review (role : Role) (acknowledge : Bool) (t : Tube) : Tube :=
  match role with
  | .primary => { t with primaryMark := true, truncated := if acknowledge then false else t.truncated }
  | .secondary => { t with secondaryMark := true }
  | _ => t

/-- Both marks, the truncated flag and the tube's state (R174). -/
def State.reviewBody (s : State) (i : Nat) : List Byte :=
  match s.tube i with
  | none => []
  | some t => flag1 t.primaryMark ++ flag1 t.secondaryMark ++ flag1 t.truncated ++ byte1 t.state.code

/-- The checks and effects of REVIEW_DONE (R174). -/
def State.reviewDone (s : State) (role : Role) (name : TubeName) (acknowledge : Bool) : State :=
  match s.findNamed name with
  | none => s.answer .reviewDone .noTube []
  | some (i, t) =>
    if !t.state.takesCalls then s.answer .reviewDone .state []
    else if !s.store.callsComplete t.entries role then s.answer .reviewDone .callsMissing []
    else if t.truncated && !acknowledge then s.answer .reviewDone .truncated []
    else
      let s' := (s.changeTube i (Tube.review role acknowledge)).evaluate i
      s'.answer .reviewDone .ok (s'.reviewBody i)

/-- REVIEW_DONE (R174). -/
def execReviewDone (rq : Requester) (name : TubeName) (acknowledge : Bool) (s : State) :
    Host.Outcome State Fault Refusal :=
  .next (s.takeRequest .reviewDone rq name.inRange (fun s => s.reviewDone rq.roleName name acknowledge))

/-! ## Resolver seats (R167 to R171) -/

/-- A hold limit in milliseconds (R167). -/
def holdMillis (minutes : Nat) : Nat := minutes * 60000

/-- An accepted TAKE_ENTRY (R168): the entry RESOLVING under the seat, the seat's timer started, the tube evaluated
and watched. -/
def State.hold (s : State) (k : Fin 4) (ref : EntryRef) (e : Entry) : State :=
  { s with
    seats := s.seats.set k { held := some ref, expiry := some (s.clock + holdMillis s.map.params.holdLimit) }
  }.changeStatus ref.number { e with status := .resolving, holder := some k }

/-- The tube of an entry is UNDER_REVIEW (check 4 of R168). -/
def State.tubeUnderReview (s : State) (i : Nat) : Bool :=
  match s.tube i with
  | none => false
  | some t => decide (t.state = .underReview)

/-- The checks and effects of TAKE_ENTRY (R144, R168). -/
def State.takeEntry (s : State) (k : Fin 4) (ref : EntryRef) : State :=
  match s.store.resolve ref with
  | none => s.answer .takeEntry .noEntry []
  | some e =>
    if e.status = .resolving ∧ e.holder ≠ some k then s.answer .takeEntry .held []
    else if (s.seats.get k).held.isSome then s.answer .takeEntry .seatBusy []
    else if e.status ≠ .disputed then s.answer .takeEntry .state []
    else if !s.tubeUnderReview e.tube then s.answer .takeEntry .state []
    else (s.hold k ref e).answer .takeEntry .ok (ref.bytes ++ byte2 (s.map.params.holdLimit * 60))

/-- TAKE_ENTRY (R168). -/
def execTakeEntry (rq : Requester) (ref : EntryRef) (s : State) : Host.Outcome State Fault Refusal :=
  .next (s.takeRequest .takeEntry rq ref.inRange (fun s => s.takeEntry rq.seat ref))

/-- The entry a seat holds, with its reference (R169, R170). -/
def State.heldEntry (s : State) (k : Fin 4) : Option (EntryRef × Entry) :=
  match (s.seats.get k).held with
  | none => none
  | some ref => (s.store.entry ref.number).map (fun e => (ref, e))

/-- The entry settled by the resolution call alone (R169). -/
def Entry.resolved (e : Entry) (c : Call) : Entry :=
  let e1 := { e with resolution := some c, holder := none }
  match c with
  | .noneFound | .geometry => e1.dismiss
  | .depth d => e1.finalize (.depth d)
  | .nonQuantifiable => e1.finalize .nonQuantifiable

/-- The check and effects of RESOLVE_ENTRY (R169). -/
def State.resolveEntry (s : State) (k : Fin 4) (c : Call) : State :=
  match s.heldEntry k with
  | none => s.answer .resolveEntry .notHolder []
  | some (ref, e) =>
    let e' := e.resolved c
    let s' := (s.freeSeat k).changeStatus ref.number e'
    s'.answer .resolveEntry .ok (ref.bytes ++ byte1 e'.status.code ++ s'.tubeStateByte e.tube)

/-- RESOLVE_ENTRY (R169). -/
def execResolveEntry (rq : Requester) (code depth : Nat) (s : State) : Host.Outcome State Fault Refusal :=
  .next (s.takeRequest .resolveEntry rq (callOf code depth).isSome
    (fun s => s.resolveEntry rq.seat ((callOf code depth).getD .noneFound)))

/-- The check and effects of RELEASE_ENTRY (R170). -/
def State.releaseEntry (s : State) (k : Fin 4) : State :=
  match s.heldEntry k with
  | none => s.answer .releaseEntry .notHolder []
  | some (ref, e) =>
    ((s.freeSeat k).changeStatus ref.number e.returned).answer .releaseEntry .ok ref.bytes

/-- RELEASE_ENTRY (R170). -/
def execReleaseEntry (rq : Requester) (s : State) : Host.Outcome State Fault Refusal :=
  .next (s.takeRequest .releaseEntry rq true (fun s => s.releaseEntry rq.seat))

/-- The entry of an expired hold returns to DISPUTED (R171). -/
def State.returnHeld (s : State) (k : Fin 4) : State :=
  match s.heldEntry k with
  | none => s.freeSeat k
  | some (ref, e) => (s.freeSeat k).changeStatus ref.number e.returned

/-- The expiry of a running hold timer (R171), at its expiry time (log 3). A stopped timer does not expire. -/
def State.holdExpiry (s : State) (k : Fin 4) : State :=
  match (s.seats.get k).expiry with
  | none => s
  | some due => ({ s with clock := max s.clock due }.returnHeld k).post .holdExpired k.val

/-- HOLD_TIMER_EXPIRY (R171). -/
def execHoldTimerExpiry (seat : Fin 4) (s : State) : Host.Outcome State Fault Refusal :=
  .next (s.whenRunning (fun s => s.holdExpiry seat))

end Sys2Proof.Machine
end

