-- ==== Sys2Proof/Machine/Walker.lean ====
section
/-! DEFINITION. The selection walker (chapter 4): geometry, selection tests, and the events WALKER_CHOICE,
WALKER_EXAMINE and CLAIM_REQUEST. -/

namespace Sys2Proof.Machine

/-! ## Walk order (R67, R69, R70) -/

/-- The rows a window spans. -/
def Rect.rows (r : Rect) : Nat := r.rowHi + 1 - r.rowLo

/-- The columns a window spans. -/
def Rect.cols (r : Rect) : Nat := r.colHi + 1 - r.colLo

/-- N, the number of positions of a window (R67). -/
def Rect.size (r : Rect) : Nat := r.rows * r.cols

/-- The start corner is a top one (R69). -/
def Corner.top : Corner → Bool
  | .topLeft | .topRight => true
  | .bottomLeft | .bottomRight => false

/-- The start corner is a left one (R69). -/
def Corner.left : Corner → Bool
  | .topLeft | .bottomLeft => true
  | .topRight | .bottomRight => false

/-- The `k`-th of the numbers from `lo` to `hi`, ascending or descending. -/
def nth (ascending : Bool) (lo hi k : Nat) : Nat := if ascending then lo + k else hi - k

/-- The place of `x` among the numbers from `lo` to `hi`, ascending or descending. -/
def placeOf (ascending : Bool) (lo hi x : Nat) : Nat := if ascending then x - lo else hi - x

/-- The direction along line `line`, given that of the first line (R70). -/
def lineAscends (first serpentine : Bool) (line : Nat) : Bool :=
  if serpentine && line % 2 == 1 then !first else first

/-- The position of walk index `k` (R69, R70). -/
def walkPos (c : Config) (k : Nat) : Pos :=
  let w := c.window
  match c.majorAxis with
  | .row =>
    let line := k / w.cols
    { row := nth c.startCorner.top w.rowLo w.rowHi line
      col := nth (lineAscends c.startCorner.left c.serpentine line) w.colLo w.colHi (k % w.cols) }
  | .column =>
    let line := k / w.rows
    { row := nth (lineAscends c.startCorner.top c.serpentine line) w.rowLo w.rowHi (k % w.rows)
      col := nth c.startCorner.left w.colLo w.colHi line }

/-- The walk index of a position of the window (R70). -/
def walkIndex (c : Config) (p : Pos) : Nat :=
  let w := c.window
  match c.majorAxis with
  | .row =>
    let line := placeOf c.startCorner.top w.rowLo w.rowHi p.row
    line * w.cols + placeOf (lineAscends c.startCorner.left c.serpentine line) w.colLo w.colHi p.col
  | .column =>
    let line := placeOf c.startCorner.left w.colLo w.colHi p.col
    line * w.rows + placeOf (lineAscends c.startCorner.top c.serpentine line) w.rowLo w.rowHi p.row

/-- Where a seek begins (R71, R72): index 0 for "before first", otherwise the index after the cursor's, N−1 followed
by 0. -/
def startIndex (c : Config) : Option Pos → Nat
  | none => 0
  | some p => (walkIndex c p + 1) % c.window.size

/-! ## The tests at a position (R73, R74) -/

/-- The position lies inside a keep-out region that is defined and enabled for the channel (R68). -/
def inKeepout (w : Walker) (c : Config) (p : Pos) : Bool :=
  eightNumbers.any (fun k =>
    c.keepouts.get k &&
      match w.keepouts.get k with
      | none => false
      | some r => r.holds p)

/-- The mix flag of a tube (R74): index 4P + 2S + Z. -/
def mixSelects (c : Config) (t : Tube) : Bool :=
  let sampled := c.pattern.getLsbD (8 * (t.pos.row % 8) + t.pos.col % 8)
  let zoned := c.zones.getLsbD t.zone
  c.mix.getLsbD (4 * t.planned.toNat + 2 * sampled.toNat + zoned.toNat)

/-- The tube's state is in the channel's state set (R73). -/
def StateSet.holds (x : StateSet) : TubeState → Bool
  | .untested => x.untested
  | .retest => x.retest
  | _ => false

/-- The five tests of R73 at a position, for channel `n`; true when all pass. -/
def State.passesTests (s : State) (n : Fin 8) (p : Pos) : Bool :=
  let c := (s.chan n).config
  match (s.map.at p).bind s.tube with
  | none => false
  | some t =>
    !inKeepout s.walker c p && mixSelects c t && (c.states.holds t.state && t.claim.isNone) &&
    !s.clearanceHit c.face p

/-! ## The seek -/

/-- A seek ends exhausted (R44, R77): the channel goes from SEEKING to IDLE with its exhausted flag set, EXHAUSTED is
posted, the cursor stays and the walker is idle. -/
def State.exhaust (s : State) (n : Fin 8) : State :=
  let c := s.chan n
  let state := if c.state = .seeking then ChanState.idle else c.state
  let s1 := s.setChan n { c with state := state, exhausted := true }
  { s1 with walker := { s1.walker with seek := none } }.post .exhausted n.val

/-- The position of the seek is counted as examined and the walk goes on (R72, R75, R78): to the next walk index, or
to a further round when the round ends with the renew mark set, or to its exhausted end. -/
def State.walkOn (s : State) (k : Seek) : State :=
  let examined := min (k.examined + 1) Config.examinedLimit
  let next := (k.index + 1) % k.size
  if next ≠ k.start then
    { s with walker := { s.walker with seek := some { k with index := next, examined, request := none } } }
  else if k.renew then
    { s with walker := { s.walker with seek := some { k with index := next, examined, request := none, renew := false } } }
  else s.exhaust k.chan

/-- Channel `a` goes before channel `b` when the walker chooses (R66): waiting, and of a higher level. -/
def State.chooses (s : State) (best : Option (Fin 8)) (n : Fin 8) : Option (Fin 8) :=
  if s.walker.waiting.get n then
    match best with
    | none => some n
    | some b => if (s.chan b).config.priority < (s.chan n).config.priority then some n else some b
  else best

/-- The waiting channel of highest priority level, and among those the lowest number (R66). -/
def State.chosen (s : State) : Option (Fin 8) := eightNumbers.foldl s.chooses none

/-- The walker's choice (R66, R72): the chosen channel leaves the waiting set and its seek begins; an empty window
ends it exhausted at once. -/
def State.walkerChoice (s : State) : State :=
  match s.walker.seek, s.chosen with
  | none, some n =>
    let c := (s.chan n).config
    let s1 := { s with walker := { s.walker with waiting := s.walker.waiting.set n false } }
    if c.window.size = 0 then s1.exhaust n
    else
      let start := startIndex c (s.walker.cursors.get n)
      { s1 with
        walker :=
          { s1.walker with
            seek := some
              { chan := n, size := c.window.size, start, index := start, examined := 0, renew := false,
                request := none } } }
  | _, _ => s

/-- The walker examines one position (R72, R73, R75): a position that passes every test becomes the outstanding
claim request; any other is counted and the walk goes on. -/
def State.walkerExamine (s : State) : State :=
  match s.walker.seek with
  | none => s
  | some k =>
    if k.request.isSome then s
    else
      let p := walkPos (s.chan k.chan).config k.index
      if s.passesTests k.chan p then { s with walker := { s.walker with seek := some { k with request := some p } } }
      else s.walkOn k

/-- The tube map takes the walker's claim request (R47, R75, R76): a grant ends the seek with the cursor at the
claimed position; a refusal counts the position and the walk goes on. -/
def State.claimRequest (s : State) : State :=
  match s.walker.seek with
  | none => s
  | some k =>
    match k.request with
    | none => s
    | some p =>
      match (s.map.at p).bind (fun i => (s.tube i).map (fun t => (i, t))) with
      | none => s.walkOn k
      | some (i, t) =>
        match s.claimReason k.chan t with
        | some _ => s.walkOn k
        | none =>
          let s1 := s.grant k.chan i t
          { s1 with
            walker :=
              { s1.walker with cursors := s1.walker.cursors.set k.chan (some p), seek := none } }

/-- WALKER_CHOICE (R66). -/
def execWalkerChoice (s : State) : Host.Outcome State Fault Refusal := .next (s.whenRunning State.walkerChoice)

/-- WALKER_EXAMINE (R73). -/
def execWalkerExamine (s : State) : Host.Outcome State Fault Refusal := .next (s.whenRunning State.walkerExamine)

/-- CLAIM_REQUEST (R47). -/
def execClaimRequest (s : State) : Host.Outcome State Fault Refusal := .next (s.whenRunning State.claimRequest)

end Sys2Proof.Machine
end

