-- ==== Sys2Proof/Machine/Layout.lean ====
section
/-! DEFINITION. The layout commands (chapter 1, 7.1): DEFINE_TUBES, CLEAR_LAYOUT, CLEAR_LAYOUT_TUBE, SET_LANDMARKS,
SET_CAMPAIGN, LOAD_CURVE, PLAN_REGION, PLAN_REGION_TUBE. -/

namespace Sys2Proof.Machine

/-! ## Declaration (R2, R4, R5) -/

/-- A tube record at declaration (R2). -/
def newTube (p : Pos) (zone : Nat) (planned : Bool) : Tube :=
  { pos := p, zone, state := .untested, planned, claim := none, passes := 0, attempts := 0, primaryMark := false,
    secondaryMark := false, truncated := false, entries := [], worstFinal := none, history := none,
    plugCampaign := none }

/-- A tube declared at a free cell (R5, R37): it takes the next tube index, and the census, the completion check and
the candidates-changed signal follow. -/
def State.declare (s : State) (p : Pos) (zone : Nat) (planned : Bool) : State :=
  let t := newTube p zone planned
  let m := s.map
  let s1 :=
    { s with
      map :=
        { m with
          directory := sparseSet none m.directory p.cell (some m.tubes.length)
          tubes := m.tubes ++ [t]
          census := m.census.enter t } }
  (s1.completionAfter m.census).candidatesChanged

/-- How far a run has come (R5). -/
structure Run where
  state : State
  declared : Nat
  skipped : Nat
  first : Option Nat
  full : Bool

/-- The run at its next column (R5): skipped where a tube stands, declared where there is room, stopped otherwise. -/
def Run.visit (row zone : Nat) (planned : Bool) (r : Run) (col : Nat) : Run :=
  if r.full then r
  else
    match r.state.map.at { row, col } with
    | some _ => { r with skipped := r.skipped + 1 }
    | none =>
      if r.state.map.tubes.length < Config.tubeLimit then
        { r with
          state := r.state.declare { row, col } zone planned
          declared := r.declared + 1
          first := some (r.first.getD r.state.map.tubes.length) }
      else { r with full := true }

/-- The range condition of R4. -/
def runInRange (row first last step zone : Nat) : Bool :=
  row < 256 && first < 256 && last < 256 && (step == 1 || step == 2) && zone < 16 && first ≤ last

/-- An accepted DEFINE_TUBES (R5). -/
def State.defineTubes (s : State) (row first last step zone : Nat) (planned : Bool) : State :=
  let r := (runColumns first last step).foldl (Run.visit row zone planned)
    { state := s, declared := 0, skipped := 0, first := none, full := false }
  r.state.answer .defineTubes (if r.full then .full else .ok)
    (byte2 r.declared ++ byte2 r.skipped ++ presence 2 byte2 r.first)

/-- DEFINE_TUBES (R4, R5). -/
def execDefineTubes (rq : Requester) (row first last step zone : Nat) (planned : Bool) (s : State) :
    Host.Outcome State Fault Refusal :=
  .next (s.takeRequest .defineTubes rq (runInRange row first last step zone)
    (fun s => s.defineTubes row first last step zone planned))

/-! ## Removal (R6) -/

/-- CLEAR_LAYOUT (R6): the watch slots are emptied and the removal begins. -/
def execClearLayout (rq : Requester) (s : State) : Host.Outcome State Fault Refusal :=
  .next (s.takeRequest .clearLayout rq true
    (fun s => { s with map := { s.map with watches := Four.fill none } }.start (.clearLayout 0)))

/-- The tube of highest index is removed (R6): its entries retired, its cell freed, its record discarded, the census
lowered. -/
def State.removeLast (s : State) : State :=
  match s.map.tubes.getLast? with
  | none => s
  | some t =>
    let s1 := t.entries.foldl State.retire s
    let m := s1.map
    { s1 with
      map :=
        { m with
          directory := sparseErase m.directory t.pos.cell
          tubes := m.tubes.dropLast
          census := m.census.leave t } }.completionAfter m.census

/-- One step of CLEAR_LAYOUT (R6). -/
def State.clearLayoutTube (s : State) : State :=
  match s.port.mode, s.port.work with
  | .executing, some (.clearLayout removed) =>
    if s.map.tubes.isEmpty then s else s.removeLast.begin (.clearLayout (removed + 1))
  | _, _ => s

/-- CLEAR_LAYOUT_TUBE (R6). -/
def execClearLayoutTube (s : State) : Host.Outcome State Fault Refusal :=
  .next (s.whenRunning State.clearLayoutTube)

/-! ## Landmarks, parameters, curves (R7, R8, R126) -/

/-- SET_LANDMARKS (R7). -/
def execSetLandmarks (rq : Requester) (positions : List Nat) (s : State) : Host.Outcome State Fault Refusal :=
  .next (s.takeRequest .setLandmarks rq (landmarksInRange s.map.params.length positions)
    (fun s => { s with map := { s.map with landmarks := some positions } }.answer .setLandmarks .ok []))

/-- SET_CAMPAIGN (R8). -/
def execSetCampaign (rq : Requester) (f : CampaignFields) (s : State) : Host.Outcome State Fault Refusal :=
  .next (s.takeRequest .setCampaign rq f.inRange
    (fun s =>
      let p := f.apply s.map.params
      { s with map := { s.map with params := p } }.answer .setCampaign .ok (paramsBody p)))

/-- An accepted LOAD_CURVE (R126): the curve check, then the threshold, and the curve unless the list is empty. The form
of the curve in the response is a DESIGN CHOICE (log 8). -/
def State.loadCurve (s : State) (freq : Fin 4) (threshold : Nat) (points : List CurvePoint) : State :=
  if !points.isEmpty && !curveValid points then s.answer .loadCurve .curveInvalid []
  else
    let old := s.freqs.get freq
    let f : FreqSettings := { threshold, curve := if points.isEmpty then old.curve else some points }
    { s with freqs := s.freqs.set freq f }.answer .loadCurve .ok (freqBody f)

/-- LOAD_CURVE (R126). -/
def execLoadCurve (rq : Requester) (freq threshold : Nat) (points : List CurvePoint) (s : State) :
    Host.Outcome State Fault Refusal :=
  .next (s.takeRequest .loadCurve rq (1 ≤ freq && freq ≤ 4 && (1 ≤ threshold && threshold ≤ 4096))
    (fun s => s.loadCurve (fourOf (freq - 1)) threshold points))

/-! ## The plan (R16) -/

/-- The action of a code that has passed the range check: set 0, clear 1, as R16 lists them (11.1). -/
def planActionOf (code : Nat) : PlanAction := if code = 0 then .set else .clear

/-- PLAN_REGION (R16): the visit of the clamped rectangle begins; an unknown action code is out of range (R181). -/
def execPlanRegion (rq : Requester) (region : Bounds) (action : Nat) (s : State) :
    Host.Outcome State Fault Refusal :=
  .next (s.takeRequest .planRegion rq (action ≤ 1)
    (fun s => s.start (.planRegion region.clamped (planActionOf action) 0 0)))

/-- The next tube of a rectangle from cell `next` on, in row-major order: its cell and its index (R16). -/
def TubeMap.nextInRegion (m : TubeMap) (r : Rect) (next : Nat) : Option (Nat × Nat) :=
  m.directory.findSome? (fun kv =>
    match kv.2 with
    | none => none
    | some i => if next ≤ kv.1 && r.holds (cellPos kv.1) then some (kv.1, i) else none)

/-- PLAN_REGION changes the flag of this tube (R16). -/
def PlanAction.changes : PlanAction → Tube → Bool
  | .set, t => decide (t.state ≠ .plugged) && !t.planned
  | .clear, t => t.planned

/-- The planned flag of a tube set or cleared, with the candidates-changed signal of a set (R16, R37). -/
def State.planTube (s : State) (action : PlanAction) (i : Nat) : State :=
  match action with
  | .set => (s.changeTube i (fun t => { t with planned := true })).candidatesChanged
  | .clear => s.changeTube i (fun t => { t with planned := false })

/-- One tube of PLAN_REGION (R16). -/
def State.planRegionTube (s : State) : State :=
  match s.port.mode, s.port.work with
  | .executing, some (.planRegion region action next changed) =>
    match s.map.nextInRegion region next with
    | none => s
    | some (cell, i) =>
      match s.tube i with
      | none => s.begin (.planRegion region action (cell + 1) changed)
      | some t =>
        if action.changes t then (s.planTube action i).begin (.planRegion region action (cell + 1) (changed + 1))
        else s.begin (.planRegion region action (cell + 1) changed)
  | _, _ => s

/-- PLAN_REGION_TUBE (R16). -/
def execPlanRegionTube (s : State) : Host.Outcome State Fault Refusal :=
  .next (s.whenRunning State.planRegionTube)

end Sys2Proof.Machine
end

