-- ==== Sys2Proof/Machine/Campaign.lean ====
section
/-! DEFINITION. The campaign phases and the rollover (chapter 1): OPEN_CAMPAIGN, CLOSE_CAMPAIGN, NEW_CAMPAIGN,
PREPARE_LAYOUT, ROLLOVER_TUBE. -/

namespace Sys2Proof.Machine

/-- The landmark table is valid at OPEN_CAMPAIGN (R7): set, its last support at or below L−1. -/
def TubeMap.landmarksValid (m : TubeMap) : Bool :=
  match m.landmarks with
  | none => false
  | some l =>
    match l.getLast? with
    | none => true
    | some p => p ≤ m.params.length - 1

/-- Some frequency in use has no loaded curve (R10). -/
def State.curveMissing (s : State) : Bool :=
  s.freqs.toList.any (fun f => f.threshold < 4096 && f.curve.isNone)

/-- The campaign number rises by one, modulo 65,536, and the phase becomes ACTIVE; the completion check is armed and
applied (R9, R19). -/
def State.activate (s : State) : State :=
  { s with map := { s.map with phase := .active, campaign := (s.map.campaign + 1) % 65536 } }.armCompletion

/-- An accepted OPEN_CAMPAIGN (R10). -/
def State.openCampaign (s : State) : State :=
  if s.map.tubes.isEmpty then s.answer .openCampaign .tubes []
  else if !s.map.landmarksValid then s.answer .openCampaign .landmarks []
  else if s.curveMissing then s.answer .openCampaign .curveMissing []
  else
    let s' := s.activate
    s'.answer .openCampaign .ok (byte2 s'.map.campaign)

/-- OPEN_CAMPAIGN (R10). -/
def execOpenCampaign (rq : Requester) (s : State) : Host.Outcome State Fault Refusal :=
  .next (s.takeRequest .openCampaign rq true State.openCampaign)

/-- A channel at CLOSE_CAMPAIGN (R11): IDLE, SEEKING and HALTED go OFF. -/
def Channel.close (c : Channel) : Channel :=
  match c.state with
  | .idle | .seeking | .halted => { c with state := .off, prior := none, interrupted := none }
  | .off | .assigned | .probing | .stalled => c

/-- A seat at CLOSE_CAMPAIGN (R11, R173): freed, its entry returned to DISPUTED. -/
def State.closeSeat (s : State) (k : Fin 4) : State :=
  match (s.seats.get k).held with
  | none => s
  | some r =>
    match s.store.entry r.number with
    | none => s.freeSeat k
    | some e => (s.freeSeat k).changeStatus r.number e.returned

/-- An accepted CLOSE_CAMPAIGN (R11, R173). The seats are freed, and their entries returned, in the order 0 to 3, which
decides whose notices a full set takes (DESIGN CHOICE, log 4). -/
def State.closeCampaign (s : State) : State :=
  if s.anyClaim then s.answer .closeCampaign .claimsActive []
  else
    let s1 := { s with chans := s.chans.map Channel.close, walker := s.walker.abandonAll }
    let s2 := fourNumbers.foldl State.closeSeat s1
    { s2 with map := { s2.map with phase := .closed } }.answer .closeCampaign .ok []

/-- CLOSE_CAMPAIGN (R11). -/
def execCloseCampaign (rq : Requester) (s : State) : Host.Outcome State Fault Refusal :=
  .next (s.takeRequest .closeCampaign rq true State.closeCampaign)

/-- NEW_CAMPAIGN (R12): the rollover begins. -/
def execNewCampaign (rq : Requester) (s : State) : Host.Outcome State Fault Refusal :=
  .next (s.takeRequest .newCampaign rq true (fun s => s.start (.newCampaign 0)))

/-- PREPARE_LAYOUT (R13): the rollover begins. -/
def execPrepareLayout (rq : Requester) (s : State) : Host.Outcome State Fault Refusal :=
  .next (s.takeRequest .prepareLayout rq true (fun s => s.start (.prepareLayout 0)))

/-- A tube record after its rollover (R14). -/
def Tube.rolled (t : Tube) : Tube :=
  let kept := { t with history := depthMax t.history t.worstFinal, entries := [], worstFinal := none }
  if t.state = .plugged then kept
  else
    { kept with
      state := .untested, passes := 0, attempts := 0, primaryMark := false, secondaryMark := false,
      truncated := false, planned := false }

/-- One tube rolled over (R14). Its watch slots post once: with the change of state, or for the entries that left a
tube whose state did not change (R40). -/
def State.rollover (s : State) (i : Nat) : State :=
  match s.tube i with
  | none => s
  | some t =>
    let s1 := (t.entries.foldl State.retire s).changeTube i Tube.rolled
    if !t.entries.isEmpty && decide (t.rolled.state = t.state) then s1.postWatch t.pos else s1

/-- One step of a rollover (R14). -/
def State.rolloverTube (s : State) : State :=
  match s.port.mode, s.port.work with
  | .executing, some (.newCampaign next) =>
    if next < s.map.tubes.length then (s.rollover next).begin (.newCampaign (next + 1)) else s
  | .executing, some (.prepareLayout next) =>
    if next < s.map.tubes.length then (s.rollover next).begin (.prepareLayout (next + 1)) else s
  | _, _ => s

/-- ROLLOVER_TUBE (R14). -/
def execRolloverTube (s : State) : Host.Outcome State Fault Refusal := .next (s.whenRunning State.rolloverTube)

end Sys2Proof.Machine
end

