-- ==== Sys2Proof/Machine/Channels.lean ====
section
/-! DEFINITION. The channel commands (chapter 3, R68): CONFIGURE_CHANNEL, SET_CHANNEL_CAL, SET_KEEPOUT,
SET_CLEARANCE, START_CHANNEL, STOP_CHANNEL, ABANDON, RESUME, CHANNEL_RESET, ASSIGN_TUBE. -/

namespace Sys2Proof.Machine

/-- A channel, link or region number in range (check 5 of R181). -/
def numberInRange (n : Nat) : Bool := n ≤ 7

/-- The cursor of channel `n` becomes "before first" (R71). -/
def State.resetCursor (s : State) (n : Fin 8) : State :=
  { s with walker := { s.walker with cursors := s.walker.cursors.set n none } }

/-! ## Configuration, calibration, keep-outs, clearance (R49, R51, R52, R54, R68) -/

/-- A channel under its new configuration (R52): a SEEKING one returns to IDLE, and a change of group 1, 2 or 3
clears the exhausted flag. -/
def Channel.reconfigured (c : Channel) (cfg : Config) : Channel :=
  { c with
    config := cfg
    state := if c.state = .seeking then .idle else c.state
    exhausted := if c.config.sameSelection cfg then c.exhausted else false }

/-- An accepted CONFIGURE_CHANNEL at channel and walker (R52). -/
def State.configure (s : State) (n : Fin 8) (cfg : Config) : State :=
  let c := s.chan n
  let s1 := (if c.state = .seeking then s.abandonSeek n else s).setChan n (c.reconfigured cfg)
  (if c.config.sameSelection cfg then s1 else s1.resetCursor n).testSeek n

/-- CONFIGURE_CHANNEL (R51, R52). -/
def execConfigureChannel (rq : Requester) (ch : Nat) (f : ConfigFields) (s : State) :
    Host.Outcome State Fault Refusal :=
  .next (s.takeRequest .configureChannel rq (numberInRange ch && f.inRange)
    (fun s => (s.configure (eightOf ch) f.config).answer .configureChannel .ok (configBody f.config)))

/-- An accepted SET_CHANNEL_CAL (R54). -/
def State.setCal (s : State) (n : Fin 8) (f : CalFields) : State :=
  let c := s.chan n
  if c.claim.isSome then s.answer .setChannelCal .channelBusy []
  else
    let cal := f.apply c.cal
    (s.setChan n { c with cal }).answer .setChannelCal .ok (calBody cal)

/-- SET_CHANNEL_CAL (R54). -/
def execSetChannelCal (rq : Requester) (ch : Nat) (f : CalFields) (s : State) :
    Host.Outcome State Fault Refusal :=
  .next (s.takeRequest .setChannelCal rq (numberInRange ch && f.inRange) (fun s => s.setCal (eightOf ch) f))

/-- SET_KEEPOUT (R68): the region is replaced whole, and all eight are answered. The bounds of a request with its flag
clear are not held (DESIGN CHOICE, log 24). -/
def execSetKeepout (rq : Requester) (region : Nat) (defined : Bool) (bounds : Bounds) (s : State) :
    Host.Outcome State Fault Refusal :=
  .next (s.takeRequest .setKeepout rq (numberInRange region)
    (fun s =>
      let keepouts := s.walker.keepouts.set (eightOf region) (if defined then some bounds.clamped else none)
      { s with walker := { s.walker with keepouts } }.answer .setKeepout .ok (keepouts.toList.flatMap regionBody)))

/-- SET_CLEARANCE (R49). -/
def execSetClearance (rq : Requester) (value : Nat) (s : State) : Host.Outcome State Fault Refusal :=
  .next (s.takeRequest .setClearance rq (value ≤ 7)
    (fun s => { s with walker := { s.walker with clearance := value } }.answer .setClearance .ok []))

/-! ## Starting and stopping (R55, R56) -/

/-- The checks and effects of START_CHANNEL after the port's own (R55). -/
def State.startChannel (s : State) (n : Fin 8) : State :=
  let c := s.chan n
  if s.interlock.latch then s.answer .startChannel .interlock []
  else if c.state ≠ .off then s.answer .startChannel .state []
  else ((s.setChan n { c with state := .idle, exhausted := false }).testSeek n).answer .startChannel .ok []

/-- START_CHANNEL (R55). -/
def execStartChannel (rq : Requester) (ch : Nat) (s : State) : Host.Outcome State Fault Refusal :=
  .next (s.takeRequest .startChannel rq (numberInRange ch) (fun s => s.startChannel (eightOf ch)))

/-- The effects of STOP_CHANNEL by channel state (R56). -/
def State.stopChannel (s : State) (n : Fin 8) : State :=
  let c := s.chan n
  let off := { c with state := ChanState.off, prior := none, interrupted := none }
  match c.state, c.claim with
  | .off, _ => s.answer .stopChannel .ok []
  | .idle, _ => (s.setChan n off).answer .stopChannel .ok []
  | .seeking, _ => ((s.abandonSeek n).setChan n off).answer .stopChannel .ok []
  | .halted, none => (s.setChan n off).answer .stopChannel .ok []
  | _, _ => s.answer .stopChannel .claimHeld []

/-- STOP_CHANNEL (R56). -/
def execStopChannel (rq : Requester) (ch : Nat) (s : State) : Host.Outcome State Fault Refusal :=
  .next (s.takeRequest .stopChannel rq (numberInRange ch) (fun s => s.stopChannel (eightOf ch)))

/-! ## Ending and reviving a pass (R59, R60, R61) -/

/-- The checks and effects of ABANDON (R59): CANCEL, the release without outcome, the new channel state and the seek
condition. -/
def State.abandonPass (s : State) (n : Fin 8) : State :=
  match (s.chan n).claim with
  | none => s.answer .abandon .noClaim []
  | some k =>
    let s1 := (s.send n .cancel k.echo).releaseClaim n
    ((s1.setChan n (s1.chan n).endPass).testSeek n).answer .abandon .ok []

/-- ABANDON (R59). -/
def execAbandon (rq : Requester) (ch : Nat) (s : State) : Host.Outcome State Fault Refusal :=
  .next (s.takeRequest .abandon rq (numberInRange ch) (fun s => s.abandonPass (eightOf ch)))

/-- A message carrying the echo of the claim that channel `n` holds, if any (R45). -/
def State.sendClaim (s : State) (n : Fin 8) (k : MessageKind) : State :=
  match (s.chan n).claim with
  | none => s
  | some c => s.send n k c.echo

/-- A channel that leaves STALLED or HALTED for ASSIGNED or PROBING (R60, R113, R122): its timer is loaded and RELEASE
sent. -/
def State.revive (s : State) (n : Fin 8) (state : ChanState) : State :=
  ((s.setChan n { s.chan n with state, prior := none, interrupted := none }).loadTimer n).sendClaim n .release

/-- The check and effects of RESUME (R60). A STALLED channel always has a prior state; without one it is taken as
ASSIGNED (log 14). -/
def State.resume (s : State) (n : Fin 8) : State :=
  let c := s.chan n
  if c.state ≠ .stalled then s.answer .resume .state []
  else (s.revive n (c.prior.getD .assigned)).answer .resume .ok []

/-- RESUME (R60). -/
def execResume (rq : Requester) (ch : Nat) (s : State) : Host.Outcome State Fault Refusal :=
  .next (s.takeRequest .resume rq (numberInRange ch) (fun s => s.resume (eightOf ch)))

/-- The effects of CHANNEL_RESET (R61), in its order: the seek, the claim, the channel and its cursor, the link. -/
def State.channelReset (s : State) (n : Fin 8) : State :=
  let s1 := ((s.abandonSeek n).sendClaim n .cancel).releaseClaim n
  let s2 := s1.setChan n
    { (s1.chan n).dropClaim with state := .off, prior := none, interrupted := none, exhausted := false }
  let s3 := s2.resetCursor n
  (s3.setLinkRx n (s3.link n).restart).answer .channelReset .ok []

/-- CHANNEL_RESET (R61). -/
def execChannelReset (rq : Requester) (ch : Nat) (s : State) : Host.Outcome State Fault Refusal :=
  .next (s.takeRequest .channelReset rq (numberInRange ch) (fun s => s.channelReset (eightOf ch)))

/-! ## ASSIGN_TUBE (R57, R58) -/

/-- The position lies inside the channel's window and outside every keep-out region it has enabled (check 3 of
R57). -/
def State.mayAssign (s : State) (c : Config) (p : Pos) : Bool := c.window.holds p && !inKeepout s.walker c p

/-- The claim request of ASSIGN_TUBE, once the checks of R57 have passed (R58). -/
def State.assignClaim (s : State) (n : Fin 8) (i : Nat) (t : Tube) : State :=
  let s1 := (s.abandonSeek n).setChan n { s.chan n with state := .idle }
  match s1.claimReason n t with
  | some reason => (s1.testSeek n).answer .assignTube reason []
  | none => (s1.grant n i t).answer .assignTube .ok (byte2 i ++ byte1 (min (t.passes + 1) 15))

/-- The checks of R57 and the claim request of R58. -/
def State.assignTube (s : State) (n : Fin 8) (name : TubeName) : State :=
  let c := s.chan n
  match s.findNamed name with
  | none => s.answer .assignTube .noTube []
  | some (i, t) =>
    if c.state ≠ .idle ∧ c.state ≠ .seeking then s.answer .assignTube .channelBusy []
    else if !s.mayAssign c.config t.pos then s.answer .assignTube .outsideWindow []
    else s.assignClaim n i t

/-- ASSIGN_TUBE (R57, R58). -/
def execAssignTube (rq : Requester) (ch : Nat) (name : TubeName) (s : State) : Host.Outcome State Fault Refusal :=
  .next (s.takeRequest .assignTube rq (numberInRange ch && name.inRange) (fun s => s.assignTube (eightOf ch) name))

end Sys2Proof.Machine
end

