-- ==== Sys2Proof/Machine/Interlock.lean ====
section
/-! DEFINITION. The access interlock (section 6.5): INTERLOCK_CLEAR, INTERLOCK_ASSERTION, WBHOLD_RISE,
WBHOLD_SAMPLE. -/

namespace Sys2Proof.Machine

/-! ## Clearing (R122) -/

/-- Channel `n` at an accepted INTERLOCK_CLEAR (R122): a HALTED channel returns to its prior state. A prior state
other than the four of R42, which no run reaches, is taken as IDLE (log 14). -/
def State.returnChannel (s : State) (n : Fin 8) : State :=
  let c := s.chan n
  if c.state ≠ .halted then s
  else
    match c.prior with
    | some .assigned => s.revive n .assigned
    | some .probing => s.revive n .probing
    | some .stalled => s.setChan n { c with state := .stalled, prior := c.interrupted, interrupted := none }
    | _ => (s.setChan n { c with state := .idle, prior := none, interrupted := none }).testSeek n

/-- How many channels are HALTED. -/
def State.haltedCount (s : State) : Nat := (s.chans.toList.filter (fun c => decide (c.state = .halted))).length

/-- The checks and effects of INTERLOCK_CLEAR (R122). -/
def State.interlockClear (s : State) : State :=
  if s.interlock.low then s.answer .interlockClear .lineActive []
  else if !s.interlock.latch then s.answer .interlockClear .state []
  else
    let s1 := { s with interlock := { s.interlock with latch := false } }
    (eightNumbers.foldl State.returnChannel s1).answer .interlockClear .ok (byte1 s.haltedCount)

/-- INTERLOCK_CLEAR (R122). -/
def execInterlockClear (rq : Requester) (s : State) : Host.Outcome State Fault Refusal :=
  .next (s.takeRequest .interlockClear rq true State.interlockClear)

/-! ## Assertion and rise (R118, R119) -/

/-- A channel at an assertion (R119): halted with the state it was in, SEEKING as IDLE, and the state a stall
interrupted kept beside it; the timer of a pass frozen. -/
def Channel.halt (c : Channel) : Channel :=
  match c.state with
  | .idle | .seeking => { c with state := .halted, prior := some .idle }
  | .assigned | .probing => { c with state := .halted, prior := some c.state, timer := c.timer.freeze }
  | .stalled => { c with state := .halted, prior := some .stalled, interrupted := c.prior }
  | .off | .halted => c

/-- The HOLD of channel `n` at an assertion, for a channel in ASSIGNED or PROBING (R119). -/
def State.holdChannel (s : State) (n : Fin 8) : State :=
  match (s.chan n).state with
  | .assigned | .probing => s.sendClaim n .hold
  | .off | .idle | .seeking | .stalled | .halted => s

/-- The assertion (R119): debounced level low with the change count 0 (R118), the latch set, HOLD sent to the channels
in motion, every channel not OFF halted, every seek abandoned, INTERLOCK posted. -/
def State.assertInterlock (s : State) : State :=
  let s1 := eightNumbers.foldl State.holdChannel s
  { s1 with
    interlock := { low := true, changeCount := 0, latch := true }
    chans := s1.chans.map Channel.halt
    walker := s1.walker.abandonAll }.post .interlock 0

/-- The debounced level goes high, and the latch is left as it stands (R118). -/
def State.raiseLevel (s : State) : State :=
  { s with interlock := { s.interlock with low := false, changeCount := 0 } }

/-- One more sample opposite to the debounced level completes the change (R118). -/
def Interlock.due (k : Interlock) : Bool := Config.debounceSamples ≤ k.changeCount + 1

/-- INTERLOCK_ASSERTION (R119): the sixteenth low sample in a row while the debounced level is high. -/
def execInterlockAssertion (s : State) : Host.Outcome State Fault Refusal :=
  .next (s.whenRunning (fun s => if !s.interlock.low && s.interlock.due then s.assertInterlock else s))

/-- WBHOLD_RISE (R118): the sixteenth high sample in a row while the debounced level is low. -/
def execWbholdRise (s : State) : Host.Outcome State Fault Refusal :=
  .next (s.whenRunning (fun s => if s.interlock.low && s.interlock.due then s.raiseLevel else s))

/-- A sample of WBHOLD# (R118). One that completes the change count has the effect of the completing row (log 2). -/
def State.sample (s : State) (low : Bool) : State :=
  if low = s.interlock.low then { s with interlock := { s.interlock with changeCount := 0 } }
  else if s.interlock.due then (if low then s.assertInterlock else s.raiseLevel)
  else { s with interlock := { s.interlock with changeCount := s.interlock.changeCount + 1 } }

/-- WBHOLD_SAMPLE (R118). -/
def execWbholdSample (low : Bool) (s : State) : Host.Outcome State Fault Refusal :=
  .next (s.whenRunning (fun s => s.sample low))

end Sys2Proof.Machine
end

