-- ==== Sys2Proof/Machine/LinkCommands.lean ====
section
/-! DEFINITION. The link settings (chapter 5): SET_LINK, RESTART_LINK. -/

namespace Sys2Proof.Machine

/-- An accepted SET_LINK (R96): the three settings replaced, the receive state and the frame in progress kept. -/
def State.setLink (s : State) (n : Fin 8) (policy : Policy) (strict : Bool) (enables : LinkFlags) : State :=
  (s.setLinkRx n { s.link n with policy, strict, enables }).answer .setLink .ok
    (byte1 policy.code ++ flag1 strict ++ byte1 (flagsNat enables.toList))

/-- SET_LINK (R96). -/
def execSetLink (rq : Requester) (link policy : Nat) (strict : Bool) (enables : LinkFlags) (s : State) :
    Host.Outcome State Fault Refusal :=
  .next (s.takeRequest .setLink rq (numberInRange link && (policyOf policy).isSome)
    (fun s => s.setLink (eightOf link) ((policyOf policy).getD .auto) strict enables))

/-- An accepted RESTART_LINK (R97): the queue emptied, FAULT left for HUNT, any other receive state kept. -/
def State.restartLink (s : State) (n : Fin 8) : State :=
  let l := s.link n
  let rx := if l.rx = .fault then RxState.hunt else l.rx
  (s.setLinkRx n { l with rx, queue := [] }).answer .restartLink .ok (byte1 rx.code ++ byte1 l.queue.length)

/-- RESTART_LINK (R97). -/
def execRestartLink (rq : Requester) (link : Nat) (s : State) : Host.Outcome State Fault Refusal :=
  .next (s.takeRequest .restartLink rq (numberInRange link) (fun s => s.restartLink (eightOf link)))

end Sys2Proof.Machine
end

