-- ==== Sys2Proof/Machine/LinkEvents.lean ====
section
/-! DEFINITION. Link events (chapter 5): SYNC_WORD_FOUND, HEADER_CHECK, FRAME_COMPLETE, MESSAGE_SENT. -/

namespace Sys2Proof.Machine

/-- A receiver that has found a sync word (R86). -/
def Link.beginFrame (l : Link) : Link := { l with rx := .header, header := none, gathered := [] }

/-- Sixteen bits in HUNT (R86): equal to the sync word, one bit from it, or no sync word. -/
def State.syncWord (s : State) (n : Fin 8) (word : BitVec 16) : State :=
  if (s.link n).rx ≠ .hunt then s
  else
    match syncDistance word with
    | 0 => s.setLinkRx n (s.link n).beginFrame
    | 1 => (s.setLinkRx n (s.link n).beginFrame).linkError n .syncCorrected
    | _ => s

/-- SYNC_WORD_FOUND (R86). -/
def execSyncWordFound (link : Fin 8) (word : BitVec 16) (s : State) : Host.Outcome State Fault Refusal :=
  .next (s.whenRunning (fun s => s.syncWord link word))

/-- Where a damaged header leaves the receiver (R87). -/
def Policy.afterDamage : Policy → RxState
  | .auto => .hunt
  | .stop => .fault

/-- The header check over the four bytes gathered (R87). -/
def State.checkHeader (s : State) (n : Fin 8) (source kind length crc : Byte) : State :=
  let l := s.link n
  if crc8 [source, kind, length] = crc.toNat then
    s.setLinkRx n
      { l with
        rx := .payload
        header := some { source := source.toNat, kind := kind.toNat, length := length.toNat }
        gathered := [] }
  else
    (s.setLinkRx n { l with rx := l.policy.afterDamage, header := none, gathered := [] }).linkError n .headerDamaged

/-- Header bytes arrive (R87). With the fourth the header is checked; fewer are gathered (log 19). -/
def State.headerBytes (s : State) (n : Fin 8) (bytes : List Byte) : State :=
  let l := s.link n
  if l.rx ≠ .header then s
  else
    match l.gathered ++ bytes with
    | [source, kind, length, crc] => s.checkHeader n source kind length crc
    | all => if all.length < 4 then s.setLinkRx n { l with gathered := all } else s

/-- HEADER_CHECK (R87). -/
def execHeaderCheck (link : Fin 8) (bytes : List Byte) (s : State) : Host.Outcome State Fault Refusal :=
  .next (s.whenRunning (fun s => s.headerBytes link bytes))

/-- A valid frame (R90, R91): the last fields are updated, and the report is queued, or lost to a full queue with its
error event and a data gap mark on its way to the channel. -/
def State.acceptFrame (s : State) (n : Fin 8) (source : Nat) (kind : ReportKind) (payload : List Byte) : State :=
  let l := { s.link n with lastKind := some kind, lastSource := some source }
  if l.queue.length < Config.queueLimit then
    s.setLinkRx n { l with queue := l.queue ++ [{ kind, payload, chan := n }] }
  else
    let s1 := (s.setLinkRx n l).linkError n .queueOverrun
    let c := s1.chan n
    s1.setChan n { c with gapMarks := c.gapMarks + 1 }

/-- The source check (R89). -/
def State.checkSource (s : State) (n : Fin 8) (source : Nat) (kind : ReportKind) (payload : List Byte) : State :=
  if source = n.val then s.acceptFrame n source kind payload
  else
    let s1 := s.linkError n .source
    if (s.link n).strict then s1 else s1.acceptFrame n source kind payload

/-- The checks of a complete frame, in order (R88). -/
def State.judgeFrame (s : State) (n : Fin 8) (h : FrameHeader) (payload : List Byte) (crc : Nat) : State :=
  if crc16 payload ≠ crc then s.linkError n .payloadDamaged
  else
    match reportKindOf h.kind with
    | none => s.linkError n .kind
    | some kind => if h.length ≠ kind.length then s.linkError n .length else s.checkSource n h.source kind payload

/-- Payload and CRC bytes arrive (R88). With the last CRC byte the receiver enters HUNT and the frame is judged; fewer
are gathered (log 19). -/
def State.frameBytes (s : State) (n : Fin 8) (bytes : List Byte) : State :=
  let l := s.link n
  match l.rx, l.header with
  | .payload, some h =>
    let all := l.gathered ++ bytes
    if all.length < h.length + 2 then s.setLinkRx n { l with gathered := all }
    else if all.length = h.length + 2 then
      (s.setLinkRx n { l with rx := .hunt, header := none, gathered := [] }).judgeFrame n h (all.take h.length)
        (bytesNat (all.drop h.length))
    else s
  | _, _ => s

/-- FRAME_COMPLETE (R88). -/
def execFrameComplete (link : Fin 8) (bytes : List Byte) (s : State) : Host.Outcome State Fault Refusal :=
  .next (s.whenRunning (fun s => s.frameBytes link bytes))

/-- A transmitter whose message has been sent starts the oldest one waiting (R99). -/
def Transmitter.sent (t : Transmitter) : Transmitter :=
  match t.sending, t.waiting with
  | some _, m :: rest => { sending := some m, waiting := rest }
  | some _, [] => { sending := none, waiting := [] }
  | none, _ => t

/-- MESSAGE_SENT (R99). -/
def execMessageSent (link : Fin 8) (s : State) : Host.Outcome State Fault Refusal :=
  .next (s.whenRunning (fun s => { s with txs := s.txs.set link (s.txs.get link).sent }))

end Sys2Proof.Machine
end

