-- ==== Sys2Proof/Machine/NoticeCommands.lean ====
section
/-! DEFINITION. The notice commands (section 10.8): SET_NOTICE_LEVEL, SET_FLOOR, TAKE_NOTICE. -/

namespace Sys2Proof.Machine

/-- An accepted SET_NOTICE_LEVEL (R187). -/
def State.setNoticeLevel (s : State) (c : NoticeClass) (level : Nat) : State :=
  let u := s.notices.setLevel c level
  { s with notices := u }.answer .setNoticeLevel .ok (u.levels.toList.flatMap byte1)

/-- SET_NOTICE_LEVEL (R187). -/
def execSetNoticeLevel (rq : Requester) (cls level : Nat) (s : State) : Host.Outcome State Fault Refusal :=
  .next (s.takeRequest .setNoticeLevel rq ((noticeClassOf cls).isSome && level ≤ 7)
    (fun s => s.setNoticeLevel ((noticeClassOf cls).getD .interlock) level))

/-- An accepted SET_FLOOR (R191). -/
def State.setFloor (s : State) (floor : Nat) : State :=
  let s' := { s with notices := { s.notices with floor } }
  s'.answer .setFloor .ok (byte1 floor ++ flag1 s'.attn)

/-- SET_FLOOR (R191). -/
def execSetFloor (rq : Requester) (floor : Nat) (s : State) : Host.Outcome State Fault Refusal :=
  .next (s.takeRequest .setFloor rq (floor ≤ 7) (fun s => s.setFloor floor))

/-- The selected notice leaves the set (R192). -/
def NoticeUnit.remove (u : NoticeUnit) : Option Notice → NoticeUnit
  | none => u
  | some n => u.keep (u.pending.erase n)

/-- TAKE_NOTICE (R192): the answer is read before the removal. -/
def State.takeNotice (s : State) : State :=
  let n := highestNotice s.notices.levels s.notices.pending
  { s with notices := s.notices.remove n }.answer .takeNotice .ok (noticeBody s n)

/-- TAKE_NOTICE (R192). -/
def execTakeNotice (rq : Requester) (s : State) : Host.Outcome State Fault Refusal :=
  .next (s.takeRequest .takeNotice rq true State.takeNotice)

end Sys2Proof.Machine
end

