-- ==== Sys2Proof/Machine/PortEvents.lean ====
section
/-! DEFINITION. The port's own events (chapter 10): READ_TRANSFER, OVERRUN, COMMAND_COMPLETE. -/

namespace Sys2Proof.Machine

/-- The first `count` bytes of a read transfer (R183, R194): the frame from its first byte, then 00h. -/
def misoBytes (frame : List Byte) (count : Nat) : List Byte :=
  (frame ++ List.replicate (count - frame.length) 0#8).take count

/-- A read transfer of `count` whole bytes (R179, R180, R183): a held response is sent from its first byte, and once
its last byte has been sent it is discarded, OVERRUN cleared and the port IDLE. Without a held response every byte is
00h and nothing changes. In RECEIVING no read transfer can begin (R180; log 1). -/
def State.readTransfer (s : State) (count : Nat) : State :=
  if count = 0 then s
  else
    match s.port.mode, s.port.response with
    | .responding, some r =>
      let miso := misoBytes r.frame count
      if r.frame.length ≤ count then
        { s with port := { mode := .idle, received := [], work := none, response := none, overrun := false, miso } }
      else { s with port := { s.port with miso } }
    | .receiving, _ => s
    | _, _ => { s with port := { s.port with miso := List.replicate count 0#8 } }

/-- READ_TRANSFER (R183). -/
def execReadTransfer (count : Nat) (s : State) : Host.Outcome State Fault Refusal :=
  .next (s.whenRunning (fun s => s.readTransfer count))

/-- A request transfer that begins in EXECUTING or RESPONDING (R184); in the other states it is none. -/
def State.overrunEvent (s : State) : State :=
  match s.port.mode with
  | .executing | .responding => s.overrun
  | .idle | .receiving => s

/-- OVERRUN (R184). -/
def execOverrun (s : State) : Host.Outcome State Fault Refusal := .next (s.whenRunning State.overrunEvent)

/-- A long command in flight ends when its work is done (R183): CLEAR_LAYOUT with no tube left (R6), a rollover past
the last tube (R12, R13), PLAN_REGION with no further tube in the rectangle (R16), FIND_TUBE with a match or past
255/255 (R17), READ_TUBE at once. -/
def State.finish (s : State) (w : Work) : State :=
  match w with
  | .clearLayout removed => if s.map.tubes.isEmpty then s.complete .clearLayout .ok (byte2 removed) else s
  | .newCampaign next =>
    if next < s.map.tubes.length then s
    else
      let s' := s.activate
      s'.complete .newCampaign .ok (byte2 s'.map.campaign)
  | .prepareLayout next =>
    if next < s.map.tubes.length then s
    else { s with map := { s.map with phase := .layout } }.complete .prepareLayout .ok []
  | .planRegion region _ next changed =>
    if (s.map.nextInRegion region next).isSome then s else s.complete .planRegion .ok (byte2 changed)
  | .findTube _ next found =>
    if found.isSome || Config.gridCells ≤ next then s.complete .findTube .ok (findBody found) else s
  | .readTube status body => s.complete .readTube status body

/-- The completion of the command in flight (R183). -/
def State.commandComplete (s : State) : State :=
  match s.port.mode, s.port.work with
  | .executing, some w => s.finish w
  | _, _ => s

/-- COMMAND_COMPLETE (R183). -/
def execCommandComplete (s : State) : Host.Outcome State Fault Refusal :=
  .next (s.whenRunning State.commandComplete)

end Sys2Proof.Machine
end

