-- ==== Sys2Proof/Machine/Queries.lean ====
section
/-! DEFINITION. Queries (1.9, 3.7, 5.6, 8.1, 10.7): READ_TUBE, FIND_TUBE, FIND_TUBE_VISIT, READ_ENTRY, READ_CENSUS,
READ_CHANNEL, READ_LINK, READ_STATUS. -/

namespace Sys2Proof.Machine

/-- READ_TUBE takes record and list at one instant (R17); its response stands at the command's end. -/
def State.readTube (s : State) (name : TubeName) : State :=
  match s.findNamed name with
  | none => s.start (.readTube .noTube [])
  | some (i, t) => s.start (.readTube .ok (readTubeBody s.store i t))

/-- READ_TUBE (R17). -/
def execReadTube (rq : Requester) (name : TubeName) (s : State) : Host.Outcome State Fault Refusal :=
  .next (s.takeRequest .readTube rq name.inRange (fun s => s.readTube name))

/-- FIND_TUBE (R17): the visit begins at the start position. -/
def execFindTube (rq : Requester) (start : Pos) (states : BitVec 10) (s : State) :
    Host.Outcome State Fault Refusal :=
  .next (s.takeRequest .findTube rq start.inGrid (fun s => s.start (.findTube states start.cell none)))

/-- The tube of a cell, when its state is in the set (R17). -/
def State.foundAt (s : State) (states : BitVec 10) (cell : Nat) : Option Found :=
  match (s.map.at (cellPos cell)).bind (fun i => (s.tube i).map (fun t => (i, t))) with
  | none => none
  | some (i, t) => if states.getLsbD t.state.code then some { index := i, pos := cellPos cell, state := t.state } else none

/-- One position of FIND_TUBE judged (R17). -/
def State.findVisit (s : State) : State :=
  match s.port.mode, s.port.work with
  | .executing, some (.findTube states next none) =>
    if Config.gridCells ≤ next then s else s.begin (.findTube states (next + 1) (s.foundAt states next))
  | _, _ => s

/-- FIND_TUBE_VISIT (R17). -/
def execFindTubeVisit (s : State) : Host.Outcome State Fault Refusal := .next (s.whenRunning State.findVisit)

/-- READ_ENTRY (R144). -/
def State.readEntry (s : State) (ref : EntryRef) : State :=
  match s.store.resolve ref with
  | none => s.answer .readEntry .noEntry []
  | some e => s.answer .readEntry .ok (readEntryBody s ref e)

/-- READ_ENTRY (R144). -/
def execReadEntry (rq : Requester) (ref : EntryRef) (s : State) : Host.Outcome State Fault Refusal :=
  .next (s.takeRequest .readEntry rq ref.inRange (fun s => s.readEntry ref))

/-- READ_CENSUS (R18). -/
def execReadCensus (rq : Requester) (s : State) : Host.Outcome State Fault Refusal :=
  .next (s.takeRequest .readCensus rq true (fun s => s.answer .readCensus .ok (censusBody s.map)))

/-- READ_CHANNEL (R62). -/
def State.readChannel (s : State) (n : Fin 8) : State :=
  s.answer .readChannel .ok (channelBody (s.chan n) (s.walker.cursors.get n))

/-- READ_CHANNEL (R62). -/
def execReadChannel (rq : Requester) (ch : Nat) (s : State) : Host.Outcome State Fault Refusal :=
  .next (s.takeRequest .readChannel rq (numberInRange ch) (fun s => s.readChannel (eightOf ch)))

/-- READ_LINK (R95): the record answered, then the flags and the count cleared. -/
def State.readLink (s : State) (n : Fin 8) : State :=
  let l := s.link n
  (s.setLinkRx n { l with flags := LinkFlags.none, errors := 0 }).answer .readLink .ok (linkBody l)

/-- READ_LINK (R95). -/
def execReadLink (rq : Requester) (link : Nat) (s : State) : Host.Outcome State Fault Refusal :=
  .next (s.takeRequest .readLink rq (numberInRange link) (fun s => s.readLink (eightOf link)))

/-- The position the walker examines (R82). -/
def State.seekPos (s : State) (k : Seek) : Pos := walkPos (s.chan k.chan).config k.index

/-- READ_STATUS (R186). -/
def execReadStatus (rq : Requester) (s : State) : Host.Outcome State Fault Refusal :=
  .next (s.takeRequest .readStatus rq true (fun s => s.answer .readStatus .ok (statusBody s s.seekPos)))

end Sys2Proof.Machine
end

