-- ==== Sys2Proof/Machine/Timers.lean ====
section
/-! DEFINITION. The stall timers (section 6.4): STALL_TIMER_TICK, STALL_EXPIRY. -/

namespace Sys2Proof.Machine

/-- The clock stands no earlier than the tick of channel `n` that is due (log 3). -/
def State.atTick (s : State) (n : Fin 8) : State := { s with clock := max s.clock (s.chan n).timer.nextTick }

/-- A stalled channel (R115): the interrupted state becomes the prior state, the timer is frozen at 0. -/
def Channel.stall (c : Channel) : Channel :=
  { c with state := .stalled, prior := some c.state, timer := { c.timer with mode := .frozen, count := 0 } }

/-- The expiry of the stall timer of channel `n` (R115): a timer runs in ASSIGNED and PROBING alone (R112). -/
def State.expire (s : State) (n : Fin 8) : State :=
  let c := s.chan n
  match c.state with
  | .assigned | .probing => (((s.atTick n).setChan n c.stall).sendClaim n .hold).post .stall n.val
  | .off | .idle | .seeking | .stalled | .halted => s

/-- A tick that leaves the count above 0 (R112). -/
def StallTimer.ticked (t : StallTimer) : StallTimer :=
  { t with count := t.count - 1, nextTick := t.nextTick + t.tick.millis }

/-- A tick of a running timer (R112). The one that brings the count to 0 is the expiry (log 2). -/
def State.stallTick (s : State) (n : Fin 8) : State :=
  let c := s.chan n
  if c.timer.mode ≠ .running then s
  else if c.timer.count ≤ 1 then s.expire n
  else (s.atTick n).setChan n { c with timer := c.timer.ticked }

/-- STALL_TIMER_TICK (R112). -/
def execStallTimerTick (ch : Fin 8) (s : State) : Host.Outcome State Fault Refusal :=
  .next (s.whenRunning (fun s => s.stallTick ch))

/-- The last tick of a running timer brings its count to 0 (R115); before it no expiry comes (log 1). -/
def State.stallExpiry (s : State) (n : Fin 8) : State :=
  let c := s.chan n
  if c.timer.mode = .running ∧ c.timer.count ≤ 1 then s.expire n else s

/-- STALL_EXPIRY (R115). -/
def execStallExpiry (ch : Fin 8) (s : State) : Host.Outcome State Fault Refusal :=
  .next (s.whenRunning (fun s => s.stallExpiry ch))

end Sys2Proof.Machine
end

