-- ==== Sys2Proof/Machine/Requests.lean ====
section
/-! DEFINITION. The request frame read (R194, 11.1): the command code, the role and seat byte, and the body of each
command, its fields in the order its rule names them. -/

namespace Sys2Proof.Machine

/-- The command of a code (11.1, R182); absent for a code outside the permission table. -/
def commandOf (code : Nat) : Option Command :=
  match code with
  | 0x01 => some .defineTubes | 0x02 => some .clearLayout | 0x03 => some .setLandmarks | 0x04 => some .setCampaign
  | 0x05 => some .loadCurve | 0x06 => some .openCampaign | 0x07 => some .closeCampaign | 0x08 => some .newCampaign
  | 0x09 => some .prepareLayout | 0x0A => some .planRegion | 0x0B => some .configureChannel
  | 0x0C => some .setChannelCal | 0x0D => some .setKeepout | 0x0E => some .setClearance
  | 0x0F => some .startChannel | 0x10 => some .stopChannel | 0x11 => some .abandon | 0x12 => some .resume
  | 0x13 => some .channelReset | 0x14 => some .assignTube | 0x15 => some .setLink | 0x16 => some .restartLink
  | 0x17 => some .interlockClear | 0x18 => some .plugTube | 0x19 => some .unblockTube | 0x1A => some .submitCall
  | 0x1B => some .reviewDone | 0x1C => some .takeEntry | 0x1D => some .resolveEntry | 0x1E => some .releaseEntry
  | 0x1F => some .requestRetest | 0x20 => some .readTube | 0x21 => some .findTube | 0x22 => some .readEntry
  | 0x23 => some .readCensus | 0x24 => some .readChannel | 0x25 => some .readLink | 0x26 => some .readStatus
  | 0x27 => some .setNoticeLevel | 0x28 => some .setFloor | 0x29 => some .takeNotice | 0x2A => some .setWatch
  | _ => none

/-- The role and seat byte (R194): the role in bits 7–4, bits 3–2 ignored, the seat in bits 1–0. -/
def requesterOf (b : Byte) : Requester := { role := b.toNat / 16, seat := Fin.ofNat 4 b.toNat }

/-! ## Fields of a body (11.1) -/

/-- A signed bound in two bytes, two's complement. -/
def signedField (body : List Byte) (start : Nat) : Int :=
  let n := field body start 2
  if n < 32768 then n else (n : Int) - 65536

/-- Four bounds: row lo, row hi, column lo, column hi. -/
def boundsField (body : List Byte) (start : Nat) : Bounds :=
  { rowLo := signedField body start, rowHi := signedField body (start + 2)
    colLo := signedField body (start + 4), colHi := signedField body (start + 6) }

/-- A position: row, then column. -/
def posField (body : List Byte) (start : Nat) : Pos :=
  { row := field body start 1, col := field body (start + 1) 1 }

/-- A tube name: the selector, then a position or a tube index. -/
def nameField (body : List Byte) (start : Nat) : TubeName :=
  match field body start 1 with
  | 0 => .position (posField body (start + 1))
  | 1 => .index (field body (start + 1) 2)
  | selector => .other selector

/-- An entry reference: the entry number, then the issue number. -/
def refField (body : List Byte) (start : Nat) : EntryRef :=
  { number := field body start 2, issue := field body (start + 2) 1 }

/-- Flag `k` of a flag set from byte `start` on: flag 0 in bit 0 of the first byte; unused bits are not read
(log 23). -/
def flagField (body : List Byte) (start k : Nat) : Bool := (field body (start + k / 8) 1).testBit (k % 8)

/-- A flag set of `n` flags as a number, flag 0 lowest. -/
def flagsField (body : List Byte) (start n : Nat) : Nat :=
  flagsNat ((List.range' 0 n).map (flagField body start))

/-- Eight flags in one byte. -/
def eightField (body : List Byte) (start : Nat) : Eight Bool :=
  { a0 := flagField body start 0, a1 := flagField body start 1, a2 := flagField body start 2
    a3 := flagField body start 3, a4 := flagField body start 4, a5 := flagField body start 5
    a6 := flagField body start 6, a7 := flagField body start 7 }

/-- The report enables of a link, SYNC_CORRECTED as flag 0 to SEQUENCE as flag 7 (11.1). -/
def enablesField (body : List Byte) (start : Nat) : LinkFlags :=
  { syncCorrected := flagField body start 0, headerDamaged := flagField body start 1
    payloadDamaged := flagField body start 2, length := flagField body start 3, kind := flagField body start 4
    source := flagField body start 5, queueOverrun := flagField body start 6, sequence := flagField body start 7 }

/-- A value of `width` bytes after its presence byte (11.1): 00h absent, 01h a value; any other presence byte spells
nothing (log 23). -/
def optionField (body : List Byte) (start width : Nat) : Option (Option Nat) :=
  match field body start 1 with
  | 0 => some none
  | 1 => some (some (field body (start + 1) width))
  | _ => none

/-! ## The bodies -/

/-- A body of exactly `n` bytes spells the command `i`; one of another length spells none (log 23). -/
def ofLength (n : Nat) (body : List Byte) (i : Instr) : Option Instr := if body.length = n then some i else none

/-- The nine values of SET_CAMPAIGN, each behind its presence byte (R8, 11.1), 21 bytes. -/
def campaignBody (body : List Byte) : Option CampaignFields := do
  let length ← optionField body 0 2
  let plugLimit ← optionField body 3 1
  let tolerance ← optionField body 5 1
  let mergeWindow ← optionField body 7 1
  let growth ← optionField body 9 1
  let attemptLimit ← optionField body 11 1
  let overtravel ← optionField body 13 2
  let holdLimit ← optionField body 16 1
  let poolLevel ← optionField body 18 2
  if body.length = 21 then
    some { length, plugLimit, tolerance, mergeWindow, growth, attemptLimit, overtravel, holdLimit, poolLevel }
  else none

/-- A rotation and an amplitude factor of one frequency, each with its present flag (R54). -/
def frequencyCalBody (body : List Byte) (start : Nat) : Option (Option Nat × Option Nat) := do
  let rotation ← optionField body start 2
  let factor ← optionField body (start + 3) 2
  some (rotation, factor)

/-- The nine values of SET_CHANNEL_CAL with their present flags (R54), after the channel number: the scale, then
rotation and factor for F1 to F4 in turn. -/
def calFieldsBody (body : List Byte) : Option CalFields := do
  let scale ← optionField body 1 2
  let f1 ← frequencyCalBody body 4
  let f2 ← frequencyCalBody body 10
  let f3 ← frequencyCalBody body 16
  let f4 ← frequencyCalBody body 22
  if body.length = 28 then
    some
      { scale, rotation := { a0 := f1.1, a1 := f2.1, a2 := f3.1, a3 := f4.1 }
        factor := { a0 := f1.2, a1 := f2.2, a2 := f3.2, a3 := f4.2 } }
  else none

/-- The fields of CONFIGURE_CHANNEL after the channel number (R51): the face, the five keep flags, and the groups in
the order of section 3.4. The keep flags are one flag set (log 23). -/
def configFieldsBody (body : List Byte) : ConfigFields :=
  { face := field body 1 1
    keep1 := flagField body 2 0, keep2 := flagField body 2 1, keep3 := flagField body 2 2
    keep4 := flagField body 2 3, keep5 := flagField body 2 4
    window := boundsField body 3
    keepouts := eightField body 11
    majorAxis := field body 12 1
    startCorner := field body 13 1
    serpentine := flagField body 14 0
    mix := BitVec.ofNat 8 (field body 15 1)
    pattern := BitVec.ofNat 64 (flagsField body 16 64)
    zones := BitVec.ofNat 16 (flagsField body 24 16)
    states := { untested := flagField body 26 0, retest := flagField body 26 1 }
    priority := field body 27 1
    stallTick := field body 28 1
    stallReload := field body 29 1
    reloads :=
      { enter := flagField body 30 0, progress := flagField body 30 1, indication := flagField body 30 2
        farEnd := flagField body 30 3, heartbeat := flagField body 30 4 } }

/-- `n` numbers of two bytes from byte `start` on. -/
def numbersField (body : List Byte) (start n : Nat) : List Nat :=
  (List.range' 0 n).map (fun k => field body (start + 2 * k) 2)

/-- `n` curve points of three bytes from byte `start` on. -/
def pointsField (body : List Byte) (start n : Nat) : List CurvePoint :=
  (List.range' 0 n).map (fun k => { phase := field body (start + 3 * k) 2, depth := field body (start + 3 * k + 2) 1 })

/-- The request that a body spells for its command: the fields of the command's rule, in the order the rule names them
(11.1). A list carries its length in a byte before it (log 23). Absent where the body is not those fields (log 23). -/
def requestOf (c : Command) (rq : Requester) (body : List Byte) : Option Instr :=
  match c with
  | .defineTubes =>
    ofLength 6 body (.defineTubes rq (field body 0 1) (field body 1 1) (field body 2 1) (field body 3 1)
      (field body 4 1) (flagField body 5 0))
  | .clearLayout => ofLength 0 body (.clearLayout rq)
  | .setLandmarks =>
    ofLength (1 + 2 * field body 0 1) body (.setLandmarks rq (numbersField body 1 (field body 0 1)))
  | .setCampaign => (campaignBody body).map (fun f => .setCampaign rq f)
  | .loadCurve =>
    ofLength (4 + 3 * field body 3 1) body
      (.loadCurve rq (field body 0 1) (field body 1 2) (pointsField body 4 (field body 3 1)))
  | .openCampaign => ofLength 0 body (.openCampaign rq)
  | .closeCampaign => ofLength 0 body (.closeCampaign rq)
  | .newCampaign => ofLength 0 body (.newCampaign rq)
  | .prepareLayout => ofLength 0 body (.prepareLayout rq)
  | .planRegion => ofLength 9 body (.planRegion rq (boundsField body 0) (field body 8 1))
  | .configureChannel => ofLength 31 body (.configureChannel rq (field body 0 1) (configFieldsBody body))
  | .setChannelCal => (calFieldsBody body).map (fun f => .setChannelCal rq (field body 0 1) f)
  | .setKeepout => ofLength 10 body (.setKeepout rq (field body 0 1) (flagField body 1 0) (boundsField body 2))
  | .setClearance => ofLength 1 body (.setClearance rq (field body 0 1))
  | .startChannel => ofLength 1 body (.startChannel rq (field body 0 1))
  | .stopChannel => ofLength 1 body (.stopChannel rq (field body 0 1))
  | .abandon => ofLength 1 body (.abandon rq (field body 0 1))
  | .resume => ofLength 1 body (.resume rq (field body 0 1))
  | .channelReset => ofLength 1 body (.channelReset rq (field body 0 1))
  | .assignTube => ofLength 4 body (.assignTube rq (field body 0 1) (nameField body 1))
  | .setLink =>
    ofLength 4 body (.setLink rq (field body 0 1) (field body 1 1) (flagField body 2 0) (enablesField body 3))
  | .restartLink => ofLength 1 body (.restartLink rq (field body 0 1))
  | .interlockClear => ofLength 0 body (.interlockClear rq)
  | .plugTube => ofLength 3 body (.plugTube rq (nameField body 0))
  | .unblockTube => ofLength 3 body (.unblockTube rq (nameField body 0))
  | .submitCall => ofLength 5 body (.submitCall rq (refField body 0) (field body 3 1) (field body 4 1))
  | .reviewDone => ofLength 4 body (.reviewDone rq (nameField body 0) (flagField body 3 0))
  | .takeEntry => ofLength 3 body (.takeEntry rq (refField body 0))
  | .resolveEntry => ofLength 2 body (.resolveEntry rq (field body 0 1) (field body 1 1))
  | .releaseEntry => ofLength 0 body (.releaseEntry rq)
  | .requestRetest => ofLength 3 body (.requestRetest rq (nameField body 0))
  | .readTube => ofLength 3 body (.readTube rq (nameField body 0))
  | .findTube => ofLength 4 body (.findTube rq (posField body 0) (BitVec.ofNat 10 (flagsField body 2 10)))
  | .readEntry => ofLength 3 body (.readEntry rq (refField body 0))
  | .readCensus => ofLength 0 body (.readCensus rq)
  | .readChannel => ofLength 1 body (.readChannel rq (field body 0 1))
  | .readLink => ofLength 1 body (.readLink rq (field body 0 1))
  | .readStatus => ofLength 0 body (.readStatus rq)
  | .setNoticeLevel => ofLength 2 body (.setNoticeLevel rq (field body 0 1) (field body 1 1))
  | .setFloor => ofLength 1 body (.setFloor rq (field body 0 1))
  | .takeNotice => ofLength 0 body (.takeNotice rq)
  | .setWatch =>
    match field body 1 1 with
    | 0 => ofLength 4 body (.setWatch rq (field body 0 1) none)
    | 1 => ofLength 4 body (.setWatch rq (field body 0 1) (some (posField body 2)))
    | _ => none

/-- The body of a frame (R194): what stands between the role and seat byte and the CRC-16. -/
def frameBody (bytes : List Byte) : List Byte := (bytes.drop 3).take (bytes.length - 5)

end Sys2Proof.Machine
end

