-- ==== Sys2Proof/Machine/Tubes.lean ====
section
/-! DEFINITION. Commands on one tube (chapter 2): PLUG_TUBE, UNBLOCK_TUBE, REQUEST_RETEST, SET_WATCH. -/

namespace Sys2Proof.Machine

/-! ## Plugging (R34, R35) -/

/-- A tube record after PLUG_TUBE in campaign `campaign` (R3, R35). -/
def Tube.plug (campaign : Nat) (t : Tube) : Tube :=
  { t with
    history := depthMax t.history t.worstFinal, entries := [], worstFinal := none, state := .plugged,
    plugCampaign := some campaign, passes := 0, attempts := 0, primaryMark := false, secondaryMark := false,
    truncated := false, planned := false }

/-- The checks and effects of PLUG_TUBE (R34, R35). -/
def State.plugTube (s : State) (name : TubeName) : State :=
  match s.findNamed name with
  | none => s.answer .plugTube .noTube []
  | some (i, t) =>
    if t.state = .claimed ∨ t.state = .inTest then s.answer .plugTube .tubeBusy []
    else if t.state = .plugged then s.answer .plugTube .state []
    else
      let s1 := (t.entries.foldl State.retire s).changeTube i (Tube.plug s.map.campaign)
      s1.answer .plugTube .ok
        (byte1 t.entries.length ++ absentFF (depthMax t.history t.worstFinal) ++ byte2 s.map.campaign)

/-- PLUG_TUBE (R34, R35). -/
def execPlugTube (rq : Requester) (name : TubeName) (s : State) : Host.Outcome State Fault Refusal :=
  .next (s.takeRequest .plugTube rq name.inRange (fun s => s.plugTube name))

/-! ## Unblocking and retest (R32, R33) -/

/-- A tube record after UNBLOCK_TUBE (R33). -/
def Tube.unblock (t : Tube) : Tube := { t with state := .retest, attempts := 0 }

/-- The check and effects of UNBLOCK_TUBE (R33). -/
def State.unblockTube (s : State) (name : TubeName) : State :=
  match s.findNamed name with
  | none => s.answer .unblockTube .noTube []
  | some (i, t) =>
    if t.state ≠ .blocked then s.answer .unblockTube .state []
    else (s.changeTube i Tube.unblock).answer .unblockTube .ok []

/-- UNBLOCK_TUBE (R33). -/
def execUnblockTube (rq : Requester) (name : TubeName) (s : State) : Host.Outcome State Fault Refusal :=
  .next (s.takeRequest .unblockTube rq name.inRange (fun s => s.unblockTube name))

/-- The states REQUEST_RETEST takes (R32). -/
def TubeState.retestable : TubeState → Bool
  | .tested | .underReview | .cleared => true
  | _ => false

/-- A tube record after REQUEST_RETEST (R32). -/
def Tube.retest (t : Tube) : Tube := { t with state := .retest, primaryMark := false, secondaryMark := false }

/-- Some entry of the list is RESOLVING (R32). -/
def Store.resolving (st : Store) (l : List Nat) : Bool :=
  (st.listed l).any (fun ne => decide (ne.2.status = .resolving))

/-- The checks and effects of REQUEST_RETEST (R32). -/
def State.requestRetest (s : State) (name : TubeName) : State :=
  match s.findNamed name with
  | none => s.answer .requestRetest .noTube []
  | some (i, t) =>
    if !t.state.retestable then s.answer .requestRetest .state []
    else if s.store.resolving t.entries then s.answer .requestRetest .held []
    else (s.changeTube i Tube.retest).answer .requestRetest .ok (byte1 TubeState.retest.code)

/-- REQUEST_RETEST (R32). -/
def execRequestRetest (rq : Requester) (name : TubeName) (s : State) : Host.Outcome State Fault Refusal :=
  .next (s.takeRequest .requestRetest rq name.inRange (fun s => s.requestRetest name))

/-! ## Watches (R39) -/

/-- The range condition of SET_WATCH (R39). -/
def watchInRange (slot : Nat) (position : Option Pos) : Bool :=
  slot ≤ 3 &&
    match position with
    | none => true
    | some p => p.inGrid

/-- The position carried holds no tube (R39). -/
def TubeMap.noTubeAt (m : TubeMap) : Option Pos → Bool
  | none => false
  | some p => (m.at p).isNone

/-- The check and effects of SET_WATCH (R39). R39 gives the four slots to the response; that the refusal NO_TUBE carries
none of them but an empty body is a DESIGN CHOICE (log 25). -/
def State.setWatch (s : State) (slot : Fin 4) (position : Option Pos) : State :=
  if s.map.noTubeAt position then s.answer .setWatch .noTube []
  else
    let watches := s.map.watches.set slot position
    { s with map := { s.map with watches } }.answer .setWatch .ok (watchesBody watches)

/-- SET_WATCH (R39). -/
def execSetWatch (rq : Requester) (slot : Nat) (position : Option Pos) (s : State) :
    Host.Outcome State Fault Refusal :=
  .next (s.takeRequest .setWatch rq (watchInRange slot position) (fun s => s.setWatch (fourOf slot) position))

end Sys2Proof.Machine
end

