-- ==== Sys2Proof/Machine/Transfers.lean ====
section
/-! DEFINITION. A request transfer by its bytes (R179 to R181, R194): REQUEST_TRANSFER_REFUSED. -/

namespace Sys2Proof.Machine

/-- A request whose frame has been read, checked and carried out as the row of its command is (R181). -/
def carryOut (i : Instr) (s : State) : Host.Outcome State Fault Refusal :=
  match i with
  | .defineTubes rq row first last step zone planned => execDefineTubes rq row first last step zone planned s
  | .clearLayout rq => execClearLayout rq s
  | .setLandmarks rq positions => execSetLandmarks rq positions s
  | .setCampaign rq f => execSetCampaign rq f s
  | .loadCurve rq freq threshold points => execLoadCurve rq freq threshold points s
  | .openCampaign rq => execOpenCampaign rq s
  | .closeCampaign rq => execCloseCampaign rq s
  | .newCampaign rq => execNewCampaign rq s
  | .prepareLayout rq => execPrepareLayout rq s
  | .planRegion rq region action => execPlanRegion rq region action s
  | .configureChannel rq ch f => execConfigureChannel rq ch f s
  | .setChannelCal rq ch f => execSetChannelCal rq ch f s
  | .setKeepout rq region defined bounds => execSetKeepout rq region defined bounds s
  | .setClearance rq value => execSetClearance rq value s
  | .startChannel rq ch => execStartChannel rq ch s
  | .stopChannel rq ch => execStopChannel rq ch s
  | .abandon rq ch => execAbandon rq ch s
  | .resume rq ch => execResume rq ch s
  | .channelReset rq ch => execChannelReset rq ch s
  | .assignTube rq ch name => execAssignTube rq ch name s
  | .setLink rq link policy strict enables => execSetLink rq link policy strict enables s
  | .restartLink rq link => execRestartLink rq link s
  | .interlockClear rq => execInterlockClear rq s
  | .plugTube rq name => execPlugTube rq name s
  | .unblockTube rq name => execUnblockTube rq name s
  | .submitCall rq ref code depth => execSubmitCall rq ref code depth s
  | .reviewDone rq name acknowledge => execReviewDone rq name acknowledge s
  | .takeEntry rq ref => execTakeEntry rq ref s
  | .resolveEntry rq code depth => execResolveEntry rq code depth s
  | .releaseEntry rq => execReleaseEntry rq s
  | .requestRetest rq name => execRequestRetest rq name s
  | .readTube rq name => execReadTube rq name s
  | .findTube rq start states => execFindTube rq start states s
  | .readEntry rq ref => execReadEntry rq ref s
  | .readCensus rq => execReadCensus rq s
  | .readChannel rq ch => execReadChannel rq ch s
  | .readLink rq link => execReadLink rq link s
  | .readStatus rq => execReadStatus rq s
  | .setNoticeLevel rq cls level => execSetNoticeLevel rq cls level s
  | .setFloor rq floor => execSetFloor rq floor s
  | .takeNotice rq => execTakeNotice rq s
  | .setWatch rq slot position => execSetWatch rq slot position s
  | .powerOn | .reset | .resetEnd | .requestTransferRefused _ | .readTransfer _ | .overrun | .commandComplete
  | .clearLayoutTube | .rolloverTube | .planRegionTube | .findTubeVisit | .headerCheck _ _ | .frameComplete _ _
  | .dataGapMark _ | .reportTake _ | .overtravelMark _ | .messageSent _ | .stallExpiry _ | .holdTimerExpiry _
  | .interlockAssertion | .wbholdRise | .walkerChoice | .walkerExamine | .claimRequest | .syncWordFound _ _
  | .stallTimerTick _ | .wbholdSample _ => .next s

/-- A good frame of command `c` (checks 3 to 5 of R181): the request its body spells goes on as its command's row does.
A body that is not its command's fields has a field in no range: with a role and a phase that are permitted it is refused
with RANGE (DESIGN CHOICE, log 23). -/
def State.takeFrame (s : State) (c : Command) (rq : Requester) (body : List Byte) :
    Host.Outcome State Fault Refusal :=
  match requestOf c rq body with
  | none => .next (s.takeRequest c rq false id)
  | some i => carryOut i s

/-- A request transfer that has ended with these bytes (R181): check 1, check 2, and the frame of a known command. The
command byte of a refusal echoes the second byte received, or reads 00h (R194). -/
def State.judgeTransfer (s : State) (bytes : List Byte) : Host.Outcome State Fault Refusal :=
  let code := (bytes.drop 1).headD 0#8
  if !formatGood bytes then .next (s.reply code .format [])
  else
    match commandOf code.toNat with
    | none => .next (s.reply code .unknown [])
    | some c => s.takeFrame c (requesterOf ((bytes.drop 2).headD 0#8)) (frameBody bytes)

/-- The bytes received so far of a transfer that has not ended (R179, R180). -/
def State.receive (s : State) (bytes : List Byte) : State :=
  { s with port := { s.port with mode := .receiving, received := bytes, miso := [0#8] } }

/-- Bytes of a request transfer arrive, and with `ends` CS# rises (R179 to R181, R184). In IDLE a transfer begins with
them, in RECEIVING they follow those received; without the end the port is RECEIVING. In EXECUTING and RESPONDING the
transfer is an overrun. Bytes that begin with 00h are a read transfer's and not this event, and no byte is no transfer
(R179; log 1). -/
def State.transferBytes (s : State) (bytes : List Byte) (ends : Bool) : Host.Outcome State Fault Refusal :=
  match s.port.mode with
  | .idle =>
    if bytes.headD 0#8 = 0#8 then .next s
    else if ends then s.judgeTransfer bytes else .next (s.receive bytes)
  | .receiving =>
    if ends then s.judgeTransfer (s.port.received ++ bytes) else .next (s.receive (s.port.received ++ bytes))
  | .executing | .responding => .next (if bytes.headD 0#8 = 0#8 then s else s.overrun)

/-- REQUEST_TRANSFER_REFUSED (R181). -/
def execRequestTransferRefused (transfer : Transfer) (s : State) : Host.Outcome State Fault Refusal :=
  if s.held then .next s else s.transferBytes transfer.bytes transfer.ends

end Sys2Proof.Machine
end

