-- ==== Sys2Proof/Machine/Dispatch.lean ====
section
/-! DEFINITION. Dispatch: every command to its meaning, one arm each. -/

namespace Sys2Proof.Machine

def exec (i : Instr) (s : State) : Host.Outcome State Fault Refusal :=
  match i with
  | .powerOn => Sys2Proof.Machine.execPowerOn s
  | .reset => Sys2Proof.Machine.execReset s
  | .resetEnd => Sys2Proof.Machine.execResetEnd s
  | .requestTransferRefused transfer => Sys2Proof.Machine.execRequestTransferRefused transfer s
  | .readTransfer count => Sys2Proof.Machine.execReadTransfer count s
  | .overrun => Sys2Proof.Machine.execOverrun s
  | .commandComplete => Sys2Proof.Machine.execCommandComplete s
  | .defineTubes rq row first last step zone planned => Sys2Proof.Machine.execDefineTubes rq row first last step zone planned s
  | .clearLayout rq => Sys2Proof.Machine.execClearLayout rq s
  | .clearLayoutTube => Sys2Proof.Machine.execClearLayoutTube s
  | .setLandmarks rq positions => Sys2Proof.Machine.execSetLandmarks rq positions s
  | .setCampaign rq f => Sys2Proof.Machine.execSetCampaign rq f s
  | .loadCurve rq freq threshold points => Sys2Proof.Machine.execLoadCurve rq freq threshold points s
  | .openCampaign rq => Sys2Proof.Machine.execOpenCampaign rq s
  | .closeCampaign rq => Sys2Proof.Machine.execCloseCampaign rq s
  | .newCampaign rq => Sys2Proof.Machine.execNewCampaign rq s
  | .prepareLayout rq => Sys2Proof.Machine.execPrepareLayout rq s
  | .rolloverTube => Sys2Proof.Machine.execRolloverTube s
  | .planRegion rq region action => Sys2Proof.Machine.execPlanRegion rq region action s
  | .planRegionTube => Sys2Proof.Machine.execPlanRegionTube s
  | .configureChannel rq ch f => Sys2Proof.Machine.execConfigureChannel rq ch f s
  | .setChannelCal rq ch f => Sys2Proof.Machine.execSetChannelCal rq ch f s
  | .setKeepout rq region defined bounds => Sys2Proof.Machine.execSetKeepout rq region defined bounds s
  | .setClearance rq value => Sys2Proof.Machine.execSetClearance rq value s
  | .startChannel rq ch => Sys2Proof.Machine.execStartChannel rq ch s
  | .stopChannel rq ch => Sys2Proof.Machine.execStopChannel rq ch s
  | .abandon rq ch => Sys2Proof.Machine.execAbandon rq ch s
  | .resume rq ch => Sys2Proof.Machine.execResume rq ch s
  | .channelReset rq ch => Sys2Proof.Machine.execChannelReset rq ch s
  | .assignTube rq ch name => Sys2Proof.Machine.execAssignTube rq ch name s
  | .setLink rq link policy strict enables => Sys2Proof.Machine.execSetLink rq link policy strict enables s
  | .restartLink rq link => Sys2Proof.Machine.execRestartLink rq link s
  | .interlockClear rq => Sys2Proof.Machine.execInterlockClear rq s
  | .plugTube rq name => Sys2Proof.Machine.execPlugTube rq name s
  | .unblockTube rq name => Sys2Proof.Machine.execUnblockTube rq name s
  | .submitCall rq ref code depth => Sys2Proof.Machine.execSubmitCall rq ref code depth s
  | .reviewDone rq name acknowledge => Sys2Proof.Machine.execReviewDone rq name acknowledge s
  | .takeEntry rq ref => Sys2Proof.Machine.execTakeEntry rq ref s
  | .resolveEntry rq code depth => Sys2Proof.Machine.execResolveEntry rq code depth s
  | .releaseEntry rq => Sys2Proof.Machine.execReleaseEntry rq s
  | .requestRetest rq name => Sys2Proof.Machine.execRequestRetest rq name s
  | .readTube rq name => Sys2Proof.Machine.execReadTube rq name s
  | .findTube rq start states => Sys2Proof.Machine.execFindTube rq start states s
  | .findTubeVisit => Sys2Proof.Machine.execFindTubeVisit s
  | .readEntry rq ref => Sys2Proof.Machine.execReadEntry rq ref s
  | .readCensus rq => Sys2Proof.Machine.execReadCensus rq s
  | .readChannel rq ch => Sys2Proof.Machine.execReadChannel rq ch s
  | .readLink rq link => Sys2Proof.Machine.execReadLink rq link s
  | .readStatus rq => Sys2Proof.Machine.execReadStatus rq s
  | .setNoticeLevel rq cls level => Sys2Proof.Machine.execSetNoticeLevel rq cls level s
  | .setFloor rq floor => Sys2Proof.Machine.execSetFloor rq floor s
  | .takeNotice rq => Sys2Proof.Machine.execTakeNotice rq s
  | .setWatch rq slot position => Sys2Proof.Machine.execSetWatch rq slot position s
  | .headerCheck link bytes => Sys2Proof.Machine.execHeaderCheck link bytes s
  | .frameComplete link bytes => Sys2Proof.Machine.execFrameComplete link bytes s
  | .dataGapMark ch => Sys2Proof.Machine.execDataGapMark ch s
  | .reportTake extent => Sys2Proof.Machine.execReportTake s extent
  | .overtravelMark ch => Sys2Proof.Machine.execOvertravelMark ch s
  | .messageSent link => Sys2Proof.Machine.execMessageSent link s
  | .stallExpiry ch => Sys2Proof.Machine.execStallExpiry ch s
  | .holdTimerExpiry seat => Sys2Proof.Machine.execHoldTimerExpiry seat s
  | .interlockAssertion => Sys2Proof.Machine.execInterlockAssertion s
  | .wbholdRise => Sys2Proof.Machine.execWbholdRise s
  | .walkerChoice => Sys2Proof.Machine.execWalkerChoice s
  | .walkerExamine => Sys2Proof.Machine.execWalkerExamine s
  | .claimRequest => Sys2Proof.Machine.execClaimRequest s
  | .syncWordFound link word => Sys2Proof.Machine.execSyncWordFound link word s
  | .stallTimerTick ch => Sys2Proof.Machine.execStallTimerTick ch s
  | .wbholdSample low => Sys2Proof.Machine.execWbholdSample low s

end Sys2Proof.Machine
end

