-- ==== Sys2Proof/Machine/Step.lean ====
section
/-! DEFINITION. One step: the command at the front of the queue, or a millisecond of idling. -/

namespace Sys2Proof.Machine

/-- One step (log 3, log 11): the command at the front of the queue is taken and has its effect on the state with the
rest of the queue. On an empty queue the part idles and the reference clock moves on one millisecond; nothing else
changes, because every effect of time is a command of its own. -/
def step (s : State) : Host.Outcome State Fault Refusal :=
  match s.pending with
  | [] => .next { s with clock := s.clock + 1 }
  | c :: rest => exec c { s with pending := rest }

/-- The command a table word spells, put at the front of the queue; the state itself where it spells none (log 12). -/
def State.withFetchWord (s : State) (nbits w : Nat) : State :=
  match Sys2Proof.decodeTableWord nbits w with
  | none => s
  | some c => { s with pending := c :: s.pending }

end Sys2Proof.Machine
end

