-- ==== Sys2Proof/Safety.lean ====
section
/-! DEFINITION. The terms the statements use: which requests the port takes, and the promises the manual makes about
every moment of the part's life. -/

namespace Sys2Proof

open Machine

/-- The request command and the requester of a request row; absent for an event. -/
def Instr.request : Instr → Option (Command × Requester)
  | .powerOn | .reset | .resetEnd | .requestTransferRefused _ | .readTransfer _ | .overrun | .commandComplete
  | .clearLayoutTube | .rolloverTube | .planRegionTube | .findTubeVisit | .headerCheck _ _ | .frameComplete _ _
  | .dataGapMark _ | .reportTake _ | .overtravelMark _ | .messageSent _ | .stallExpiry _ | .holdTimerExpiry _
  | .interlockAssertion | .wbholdRise | .walkerChoice | .walkerExamine | .claimRequest | .syncWordFound _ _
  | .stallTimerTick _ | .wbholdSample _ => none
  | .defineTubes rq _ _ _ _ _ _ => some (.defineTubes, rq)
  | .clearLayout rq => some (.clearLayout, rq)
  | .setLandmarks rq _ => some (.setLandmarks, rq)
  | .setCampaign rq _ => some (.setCampaign, rq)
  | .loadCurve rq _ _ _ => some (.loadCurve, rq)
  | .openCampaign rq => some (.openCampaign, rq)
  | .closeCampaign rq => some (.closeCampaign, rq)
  | .newCampaign rq => some (.newCampaign, rq)
  | .prepareLayout rq => some (.prepareLayout, rq)
  | .planRegion rq _ _ => some (.planRegion, rq)
  | .configureChannel rq _ _ => some (.configureChannel, rq)
  | .setChannelCal rq _ _ => some (.setChannelCal, rq)
  | .setKeepout rq _ _ _ => some (.setKeepout, rq)
  | .setClearance rq _ => some (.setClearance, rq)
  | .startChannel rq _ => some (.startChannel, rq)
  | .stopChannel rq _ => some (.stopChannel, rq)
  | .abandon rq _ => some (.abandon, rq)
  | .resume rq _ => some (.resume, rq)
  | .channelReset rq _ => some (.channelReset, rq)
  | .assignTube rq _ _ => some (.assignTube, rq)
  | .setLink rq _ _ _ _ => some (.setLink, rq)
  | .restartLink rq _ => some (.restartLink, rq)
  | .interlockClear rq => some (.interlockClear, rq)
  | .plugTube rq _ => some (.plugTube, rq)
  | .unblockTube rq _ => some (.unblockTube, rq)
  | .submitCall rq _ _ _ => some (.submitCall, rq)
  | .reviewDone rq _ _ => some (.reviewDone, rq)
  | .takeEntry rq _ => some (.takeEntry, rq)
  | .resolveEntry rq _ _ => some (.resolveEntry, rq)
  | .releaseEntry rq => some (.releaseEntry, rq)
  | .requestRetest rq _ => some (.requestRetest, rq)
  | .readTube rq _ => some (.readTube, rq)
  | .findTube rq _ _ => some (.findTube, rq)
  | .readEntry rq _ => some (.readEntry, rq)
  | .readCensus rq => some (.readCensus, rq)
  | .readChannel rq _ => some (.readChannel, rq)
  | .readLink rq _ => some (.readLink, rq)
  | .readStatus rq => some (.readStatus, rq)
  | .setNoticeLevel rq _ _ => some (.setNoticeLevel, rq)
  | .setFloor rq _ => some (.setFloor, rq)
  | .takeNotice rq => some (.takeNotice, rq)
  | .setWatch rq _ _ => some (.setWatch, rq)

end Sys2Proof

namespace Sys2Proof.Machine

/-- The port takes a request now (R180, 00_scope.md section 4): RESET# is not low, and no command or response is in
the way. -/
def State.open (s : State) : Bool := !s.held && decide (s.port.mode = .idle ∨ s.port.mode = .receiving)

/-- Checks 3 and 4 of R181 pass: the role is one of the five and permitted, and so is the phase. -/
def Command.permits (c : Command) (rq : Requester) (p : Phase) : Bool :=
  match roleOf rq.role with
  | none => false
  | some r => c.permitsRole r && c.permitsPhase p

/-- The port takes a request of command `c` and passes it on to check 5. -/
def State.takes (s : State) (c : Command) (rq : Requester) : Bool := s.open && c.permits rq s.map.phase

/-- `o` is the value that `width` bytes of a body carry behind their presence byte (11.1): 00h absent, 01h a value. -/
def carried (body : List Byte) (start width : Nat) (o : Option Nat) : Prop :=
  (field body start 1 = 0 ∧ o = none) ∨ (field body start 1 = 1 ∧ o = some (field body (start + 1) width))

/-- The fields of CONFIGURE_CHANNEL at their bytes (R51, section 3.4, 11.1): the channel number in byte 0, the face, the
five keep flags as one flag set (log 23), then the groups in order. -/
def ConfigFields.carriedBy (f : ConfigFields) (body : List Byte) : Prop :=
  f.face = field body 1 1 ∧
  [f.keep1, f.keep2, f.keep3, f.keep4, f.keep5] = (List.range 5).map (fun k => (field body 2 1).testBit k) ∧
  f.window =
    { rowLo := (BitVec.ofNat 16 (field body 3 2)).toInt, rowHi := (BitVec.ofNat 16 (field body 5 2)).toInt
      colLo := (BitVec.ofNat 16 (field body 7 2)).toInt, colHi := (BitVec.ofNat 16 (field body 9 2)).toInt } ∧
  (∀ k : Fin 8, f.keepouts.get k = (field body 11 1).testBit k.val) ∧
  f.majorAxis = field body 12 1 ∧ f.startCorner = field body 13 1 ∧ f.serpentine = (field body 14 1).testBit 0 ∧
  f.mix = BitVec.ofNat 8 (field body 15 1) ∧
  (∀ r c, r < 8 → c < 8 → f.pattern.getLsbD (8 * r + c) = (field body (16 + r) 1).testBit c) ∧
  (∀ z, z < 16 → f.zones.getLsbD z = (field body (24 + z / 8) 1).testBit (z % 8)) ∧
  f.states = { untested := (field body 26 1).testBit 0, retest := (field body 26 1).testBit 1 } ∧
  f.priority = field body 27 1 ∧ f.stallTick = field body 28 1 ∧ f.stallReload = field body 29 1 ∧
  f.reloads =
    { enter := (field body 30 1).testBit 0, progress := (field body 30 1).testBit 1
      indication := (field body 30 1).testBit 2, farEnd := (field body 30 1).testBit 3
      heartbeat := (field body 30 1).testBit 4 }

/-- The fields of every request at their bytes (11.1, R194), in the order of each command's rule: numbers most significant
byte first, bounds in two's complement, a single flag in bit 0 of its byte, a tube name behind its selector, an entry
reference of number and issue, an optional value behind its presence byte. A list stands behind its length, the keep
flags are one flag set, unused bits are not read, and a body of another length spells nothing (log 23). -/
def requestsSpelled (rq : Requester) : Prop :=
  (∀ ci ∈
      [(Command.clearLayout, Instr.clearLayout rq), (.openCampaign, .openCampaign rq),
       (.closeCampaign, .closeCampaign rq), (.newCampaign, .newCampaign rq), (.prepareLayout, .prepareLayout rq),
       (.interlockClear, .interlockClear rq), (.releaseEntry, .releaseEntry rq), (.readCensus, .readCensus rq),
       (.readStatus, .readStatus rq), (.takeNotice, .takeNotice rq)],
    requestOf ci.1 rq [] = some ci.2) ∧
  (∀ a : Byte, ∀ ci ∈
      [(Command.setClearance, Instr.setClearance rq a.toNat), (.startChannel, .startChannel rq a.toNat),
       (.stopChannel, .stopChannel rq a.toNat), (.abandon, .abandon rq a.toNat), (.resume, .resume rq a.toNat),
       (.channelReset, .channelReset rq a.toNat), (.restartLink, .restartLink rq a.toNat),
       (.readChannel, .readChannel rq a.toNat), (.readLink, .readLink rq a.toNat), (.setFloor, .setFloor rq a.toNat)],
    requestOf ci.1 rq [a] = some ci.2) ∧
  (∀ a b c d e f : Byte,
    requestOf .defineTubes rq [a, b, c, d, e, f] =
      some (.defineTubes rq a.toNat b.toNat c.toNat d.toNat e.toNat (f.getLsbD 0)) ∧
    requestOf .setLink rq [a, b, c, d] = some (.setLink rq a.toNat b.toNat (c.getLsbD 0)
      { syncCorrected := d.getLsbD 0, headerDamaged := d.getLsbD 1, payloadDamaged := d.getLsbD 2
        length := d.getLsbD 3, kind := d.getLsbD 4, source := d.getLsbD 5, queueOverrun := d.getLsbD 6
        sequence := d.getLsbD 7 }) ∧
    requestOf .resolveEntry rq [a, b] = some (.resolveEntry rq a.toNat b.toNat) ∧
    requestOf .setNoticeLevel rq [a, b] = some (.setNoticeLevel rq a.toNat b.toNat) ∧
    requestOf .findTube rq [a, b, c, d] =
      some (.findTube rq { row := a.toNat, col := b.toNat } (BitVec.ofNat 10 (c.toNat + 256 * d.toNat))) ∧
    requestOf .setWatch rq [a, 0#8, b, c] = some (.setWatch rq a.toNat none) ∧
    requestOf .setWatch rq [a, 1#8, b, c] = some (.setWatch rq a.toNat (some { row := b.toNat, col := c.toNat })) ∧
    (1 < d.toNat → requestOf .setWatch rq [a, d, b, c] = none)) ∧
  (∀ (a b c d e : Byte) (ref : EntryRef), ref = { number := 256 * a.toNat + b.toNat, issue := c.toNat } →
    requestOf .submitCall rq [a, b, c, d, e] = some (.submitCall rq ref d.toNat e.toNat) ∧
    requestOf .takeEntry rq [a, b, c] = some (.takeEntry rq ref) ∧
    requestOf .readEntry rq [a, b, c] = some (.readEntry rq ref)) ∧
  (∀ (k a b c : Byte) (name : TubeName), (k = 0#8 → name = .position { row := a.toNat, col := b.toNat }) →
    (k = 1#8 → name = .index (256 * a.toNat + b.toNat)) → (1 < k.toNat → name = .other k.toNat) →
    requestOf .assignTube rq [c, k, a, b] = some (.assignTube rq c.toNat name) ∧
    requestOf .reviewDone rq [k, a, b, c] = some (.reviewDone rq name (c.getLsbD 0)) ∧
    requestOf .plugTube rq [k, a, b] = some (.plugTube rq name) ∧
    requestOf .unblockTube rq [k, a, b] = some (.unblockTube rq name) ∧
    requestOf .requestRetest rq [k, a, b] = some (.requestRetest rq name) ∧
    requestOf .readTube rq [k, a, b] = some (.readTube rq name)) ∧
  (∀ (a b c d e f g h i j : Byte) (bounds : Bounds),
    bounds = { rowLo := (a ++ b).toInt, rowHi := (c ++ d).toInt, colLo := (e ++ f).toInt, colHi := (g ++ h).toInt } →
    requestOf .planRegion rq [a, b, c, d, e, f, g, h, i] = some (.planRegion rq bounds i.toNat) ∧
    requestOf .setKeepout rq [i, j, a, b, c, d, e, f, g, h] =
      some (.setKeepout rq i.toNat (j.getLsbD 0) bounds)) ∧
  (∀ (body : List Byte) (f : CampaignFields), body.length = 21 →
    carried body 0 2 f.length → carried body 3 1 f.plugLimit → carried body 5 1 f.tolerance →
    carried body 7 1 f.mergeWindow → carried body 9 1 f.growth → carried body 11 1 f.attemptLimit →
    carried body 13 2 f.overtravel → carried body 16 1 f.holdLimit → carried body 18 2 f.poolLevel →
    requestOf .setCampaign rq body = some (.setCampaign rq f)) ∧
  (∀ (body : List Byte) (f : CalFields), body.length = 28 → carried body 1 2 f.scale →
    (∀ k : Fin 4, carried body (4 + 6 * k.val) 2 (f.rotation.get k) ∧
      carried body (7 + 6 * k.val) 2 (f.factor.get k)) →
    requestOf .setChannelCal rq body = some (.setChannelCal rq (field body 0 1) f)) ∧
  (∀ (body : List Byte) (f : ConfigFields), body.length = 31 → f.carriedBy body →
    requestOf .configureChannel rq body = some (.configureChannel rq (field body 0 1) f)) ∧
  (∀ (body : List Byte) (l : List Nat), body.length = 1 + 2 * l.length → field body 0 1 = l.length →
    (∀ k v, l[k]? = some v → v = field body (1 + 2 * k) 2) →
    requestOf .setLandmarks rq body = some (.setLandmarks rq l)) ∧
  (∀ (body : List Byte) (l : List CurvePoint), body.length = 4 + 3 * l.length → field body 3 1 = l.length →
    (∀ k v, l[k]? = some v → v.phase = field body (4 + 3 * k) 2 ∧ v.depth = field body (6 + 3 * k) 1) →
    requestOf .loadCurve rq body = some (.loadCurve rq (field body 0 1) (field body 1 2) l)) ∧
  ∀ (c : Command) (body : List Byte), requestOf c rq body ≠ none → body.length =
    match c with
    | .defineTubes => 6
    | .setLandmarks => 1 + 2 * field body 0 1
    | .setCampaign => 21
    | .loadCurve => 4 + 3 * field body 3 1
    | .planRegion => 9
    | .configureChannel => 31
    | .setChannelCal => 28
    | .setKeepout => 10
    | .submitCall => 5
    | .assignTube | .setLink | .reviewDone | .findTube | .setWatch => 4
    | .plugTube | .unblockTube | .takeEntry | .requestRetest | .readTube | .readEntry => 3
    | .resolveEntry | .setNoticeLevel => 2
    | .setClearance | .startChannel | .stopChannel | .abandon | .resume | .channelReset | .restartLink | .readChannel
    | .readLink | .setFloor => 1
    | .clearLayout | .openCampaign | .closeCampaign | .newCampaign | .prepareLayout | .interlockClear
    | .releaseEntry | .readCensus | .readStatus | .takeNotice => 0

/-! ## Notices and the completion check -/

/-- A notice that has been posted stands in the set, or the overflow flag is set, unless its class is at level 0
(R188, R189). -/
def NoticeUnit.told (u : NoticeUnit) (c : NoticeClass) (n : Nat) : Prop :=
  u.levels.get c ≠ 0 → { cls := c, subject := n } ∈ u.pending ∨ u.overflow = true

/-- The completion check, applied after a change of the planned or the planned non-terminal count in ACTIVE (R18, R19),
as `s` and `u` show it, the states before and after that change. Complete: the planned non-terminal count is 0, the
planned count above 0 and the flag armed; CAMPAIGN_COMPLETE is posted and the flag disarmed. Reopened: the planned
non-terminal count has risen above 0, and the flag is armed; an armed flag stays so. Otherwise the flag keeps its arming.
No CAMPAIGN_COMPLETE is posted but by Complete. -/
def State.completes (s u : State) : Prop :=
  ∀ applied complete : Prop,
    (applied ↔ s.map.phase = .active ∧ (u.map.census.planned ≠ s.map.census.planned ∨
      u.map.census.plannedOpen ≠ s.map.census.plannedOpen)) →
    (complete ↔ u.map.census.plannedOpen = 0 ∧ 0 < u.map.census.planned ∧ s.map.armed = true) →
    (applied → complete → u.map.armed = false ∧ u.notices.told .campaignComplete 0) ∧
    (applied → 0 < u.map.census.plannedOpen → s.map.census.plannedOpen = 0 ∨ s.map.armed = true →
      u.map.armed = true) ∧
    (¬ applied ∨ (u.map.census.plannedOpen = 0 ∧ ¬ complete) → u.map.armed = s.map.armed) ∧
    (¬ (applied ∧ complete) → ∀ m ∈ u.notices.pending, m.cls = .campaignComplete → m ∈ s.notices.pending)

/-! ## What a signal does -/

/-- A channel that the candidates-changed signal has reached (R37, R43). -/
def Channel.signalled (c : Channel) : Channel :=
  if c.exhausted then
    { c with exhausted := false, state := if c.state = .idle ∧ 0 < c.config.priority then .seeking else c.state }
  else c

/-- Channel `m` and its place at the walker are the same in `s` and `u`: the channel itself, its waiting mark, and the
seek when it is the one served. -/
def State.sameChannel (s u : State) (m : Fin 8) : Prop :=
  u.chan m = s.chan m ∧ u.walker.waiting.get m = s.walker.waiting.get m ∧
  ∀ k : Seek, k.chan = m → (u.walker.seek = some k ↔ s.walker.seek = some k)

/-- The candidates-changed signal has reached channel `m` between `s` and `u` (R37, R43, R78): the channel takes it, its
seek when served is renewed, and it waits when the signal sends it to SEEKING. -/
def State.signalledChannel (s u : State) (m : Fin 8) : Prop :=
  u.chan m = (s.chan m).signalled ∧
  (u.walker.waiting.get m = true ↔ s.walker.waiting.get m = true ∨
    ((s.chan m).exhausted = true ∧ (s.chan m).state = .idle ∧ 0 < (s.chan m).config.priority)) ∧
  ∀ k : Seek, k.chan = m → (u.walker.seek = some k ↔ ∃ j, s.walker.seek = some j ∧ k = { j with renew := true })

/-- What a tube's entry into UNTESTED or RETEST does beyond its own record (R37), from `s` to `u`: no other tube
changes, every channel takes the candidates-changed signal, and the completion check follows a change of its counts
(R19); the census, the completion flag, the notices and the port may change, nothing else. -/
def State.signalsFrom (s u : State) (i : Nat) : Prop :=
  (∀ j, j ≠ i → u.tube j = s.tube j) ∧ (∀ n, s.signalledChannel u n) ∧ s.completes u ∧
  u = { s with
    map := { s.map with tubes := u.map.tubes, census := u.map.census, armed := u.map.armed }
    notices := u.notices, chans := u.chans
    walker := { s.walker with waiting := u.walker.waiting, seek := u.walker.seek }
    port := u.port }

/-- What DEFINE_TUBES leaves, from `s` to `u`, when it has declared tubes at the columns `free` of a row (R1, R2, R5, R37):
their records behind the others, their cells, the candidates-changed signal when there is one; the census and the port
may change, nothing else. -/
def State.declares (s u : State) (row zone : Nat) (planned : Bool) (free : List Nat) : Prop :=
  u.map.tubes = s.map.tubes ++ free.map (fun c =>
    { pos := { row, col := c }, zone, state := .untested, planned, claim := none, passes := 0, attempts := 0,
      primaryMark := false, secondaryMark := false, truncated := false, entries := [], worstFinal := none,
      history := none, plugCampaign := none }) ∧
  (∀ p : Pos, p.inGrid = true → u.map.at p =
    if p.row = row ∧ p.col ∈ free then some (s.map.tubes.length + free.idxOf p.col) else s.map.at p) ∧
  (free = [] → u.chans = s.chans ∧ u.walker = s.walker) ∧ (free ≠ [] → ∀ n, s.signalledChannel u n) ∧
  u = { s with
    map := { s.map with directory := u.map.directory, tubes := u.map.tubes, census := u.map.census }
    chans := u.chans
    walker := { s.walker with waiting := u.walker.waiting, seek := u.walker.seek }
    port := u.port }

/-- What an evaluation leaves of a tube's record under a plug limit and the store as it stands (R31, R175). -/
def Tube.evaluated (t : Tube) (limit : Nat) (st : Store) : Tube :=
  { t with
    worstFinal := worstFinalDepth ((st.listed t.entries).map Prod.snd)
    state :=
      if t.state.takesCalls then evaluationState t limit ((st.listed t.entries).map Prod.snd) else t.state }

/-- What a change of an entry's status brings beyond the entry (R175, R176, R40), from `s` to `u`: the entry's tube is
evaluated and no other changes, and the completion check follows a change of its counts (R19); the census, the completion
flag and the notices may change, and the store, the seats, the clock and the port as the command says. -/
def State.evaluates (s u : State) (i : Nat) : Prop :=
  (∀ t, s.tube i = some t → u.tube i = some (t.evaluated s.map.params.plugLimit u.store)) ∧
  (∀ j, j ≠ i → u.tube j = s.tube j) ∧ s.completes u ∧
  u = { s with
    clock := u.clock
    map := { s.map with tubes := u.map.tubes, census := u.map.census, armed := u.map.armed }
    store := u.store, seats := u.seats, notices := u.notices, port := u.port }

/-- Every watch slot that holds the position of tube `i` has its WATCH notice told in `u` (R40). -/
def State.watched (s u : State) (i : Nat) : Prop :=
  ∀ (k : Fin 4) (t : Tube), s.tube i = some t → s.map.watches.get k = some t.pos → u.notices.told .watch k.val

/-! ## The report engine -/

/-- The engine handles report `r` of link `n` at a REPORT_TAKE of this extent, and `s0` is the part with the report out
of its queue (R100, R101; log 13): the engine has no report in hand, chooses that link and carries the whole operation
out, or it has taken the report before. -/
def State.handles (s : State) (extent : TakeExtent) (n : Fin 8) (r : Report) (s0 : State) : Prop :=
  (s.hand = none ∧ extent = .whole ∧ s.engineChoice = some n ∧ ∃ rest, (s.link n).queue = r :: rest ∧
    s0 = { s with links := s.links.set n { s.link n with queue := rest }, engine := n }) ∨
  (s.hand = some (.taken n r) ∧ s0 = { s with hand := none })

/-! ## Promises about every moment -/

/-- R190: at most 32 notices pending, no two the same, none of a class at level 0. -/
def NoticeUnit.sound (u : NoticeUnit) : Prop :=
  u.pending.length ≤ Config.noticeLimit ∧ u.pending.Nodup ∧ ∀ n ∈ u.pending, u.levels.get n.cls ≠ 0

/-- R121, its first sentence as to the channel states: while the latch is set every channel is OFF or HALTED. -/
def State.interlocked (s : State) : Prop :=
  s.interlock.latch = true → ∀ n : Fin 8, (s.chan n).state = .off ∨ (s.chan n).state = .halted

/-- The census counted afresh from the tube records (R18). -/
def censusOf (l : List Tube) : Census := l.foldl Census.enter Census.zero

/-- R18: the census kept up to date is the census counted afresh. -/
def State.censusTrue (s : State) : Prop := s.map.census = censusOf s.map.tubes

/-- The sum of the ten state counts (R18). -/
def Census.total (c : Census) : Nat := c.toList.sum

/-- The two addressed arrays stand in their canonical form (log 18). -/
def State.canonical (s : State) : Prop :=
  sparseWf none s.map.directory = true ∧ sparseWf emptySlot s.store.pool = true

/-- R84, R93, R99: no queue above 16 reports, no error count above 255, no more than 8 messages waiting. -/
def State.bounded (s : State) : Prop :=
  ∀ n : Fin 8, (s.link n).queue.length ≤ Config.queueLimit ∧ (s.link n).errors ≤ 255 ∧
    (s.txs.get n).waiting.length ≤ Config.waitLimit

/-- R142: the free list holds each free entry once and no entry in use, and there are 16,384 entries. -/
def Store.conserved (st : Store) : Prop :=
  st.free.toList.Nodup ∧ (∀ n ∈ st.free.toList, n < Config.poolSize ∧ st.entry n = none) ∧
    (∀ n, n < Config.poolSize → st.entry n = none → n ∈ st.free.toList) ∧
    ∀ n, Config.poolSize ≤ n → st.entry n = none

end Sys2Proof.Machine
end

