-- ==== Sys2Proof/Certificates/Slice0/Obligations.lean ====
section
/-! DEFINITION. The statements about the model. Each docstring names the chapter or rule of spec/ it formalises; where a
clause is the model's choice it names the log entry. "Answers a next state" means `exec` gives `.next`. -/

section Claims

open Sys2Proof Sys2Proof.Machine

/-! ## The queue -/

/-- A step runs the command at the front of the queue on the state with the rest of the queue (log 11); on an empty
queue the part idles: one millisecond of the reference clock, nothing else (log 3). -/
def Obligations.StepRunsFront : Prop :=
  (∀ (c : Instr) (rest : List Instr) (s : State), s.pending = c :: rest →
     step s = exec c { s with pending := rest }) ∧
  ∀ s : State, s.pending = [] → step s = .next { s with clock := s.clock + 1 }


/-- Every command answers a next state, and no command touches the queue (log 11). While RESET# is low the part takes
nothing but POWER_ON and RESET_END (00_scope.md section 4; that every other row then changes nothing is log 10). -/
def Obligations.EveryCommandAnswers : Prop :=
  (∀ (c : Instr) (s : State), ∃ t, exec c s = .next t ∧ t.pending = s.pending) ∧
  ∀ (c : Instr) (s : State), s.held = true → c ≠ .powerOn → c ≠ .resetEnd → exec c s = .next s

/-! ## Resets -/


/-- What POWER_ON leaves in the tube map and the indication store (R20, R158): no tube, no entry, the nine default
parameters, the free list in ascending order, the first entry taken with issue number 1. -/
def Obligations.PowerOnRecords : Prop :=
  ∀ s : State, ∃ t, exec .powerOn s = .next t ∧
    (∀ p : Pos, t.map.at p = none) ∧ t.map.tubes = [] ∧
    t.map.params =
      { length := 12000, plugLimit := 40, tolerance := 10, mergeWindow := 10, growth := 10, attemptLimit := 3,
        overtravel := 100, holdLimit := 30, poolLevel := 1024 } ∧
    t.map.landmarks = none ∧ t.map.phase = .layout ∧ t.map.campaign = 0 ∧
    (∀ x : TubeState, t.map.census.count x = 0) ∧ t.map.census.planned = 0 ∧ t.map.census.plannedOpen = 0 ∧
    t.map.armed = true ∧ (∀ k : Fin 4, t.map.watches.get k = none) ∧
    (∀ n, t.store.entry n = none ∧ (t.store.slot n).issue = 0) ∧
    t.store.free.toList = List.range 16384 ∧ t.store.free.count = 16384 ∧ t.store.warnArmed = true ∧
    (∀ (l : List Nat) (m : Measurement), ((t.create l m).store.slot 0).issue = 1) ∧
    ∀ f : Fin 4, (t.freqs.get f).threshold = 4096 ∧ (t.freqs.get f).curve = none

/-- What POWER_ON leaves in the channels, the walker, the links, the analysis controller, the port, the interlock and
the notice unit (R63, R83, R98, R124, R141, R178, R185, R193). The clock and the queue are the model's own and kept
(log 3, log 11). No measurement waits at a channel and no mark is on its way (log 5, log 13, log 15). -/
def Obligations.PowerOnBlocks : Prop :=
  ∀ s : State, ∃ t, exec .powerOn s = .next t ∧ t.held = true ∧ t.clock = s.clock ∧ t.pending = s.pending ∧
    (∀ n : Fin 8,
      (t.chan n).state = .off ∧ (t.chan n).prior = none ∧ (t.chan n).interrupted = none ∧
      (t.chan n).claim = none ∧ (t.chan n).timer.mode = .stopped ∧ (t.chan n).timer.count = 0 ∧
      (t.chan n).lastCount = none ∧ (t.chan n).exhausted = false ∧
      (t.chan n).filing = none ∧ (t.chan n).overtravelMarks = 0 ∧ (t.chan n).gapMarks = 0 ∧
      (t.chan n).config.face = .inlet ∧
      (t.chan n).config.window = { rowLo := 0, rowHi := 255, colLo := 0, colHi := 255 } ∧
      (t.chan n).config.majorAxis = .row ∧ (t.chan n).config.startCorner = .topLeft ∧
      (t.chan n).config.serpentine = true ∧ (t.chan n).config.mix = 0xF0#8 ∧
      (∀ i, i < 64 → (t.chan n).config.pattern.getLsbD i = true) ∧
      (∀ i, i < 16 → (t.chan n).config.zones.getLsbD i = true) ∧
      (t.chan n).config.states = { untested := true, retest := true } ∧ (t.chan n).config.priority = 1 ∧
      (t.chan n).config.stallTick = .one ∧ (t.chan n).config.stallReload = 60 ∧
      (t.chan n).config.reloads =
        { enter := true, progress := true, indication := true, farEnd := true, heartbeat := true } ∧
      (∀ k : Fin 8, (t.chan n).config.keepouts.get k = false) ∧
      (t.chan n).cal.scale = 100 ∧
      (∀ f : Fin 4, (t.chan n).cal.rotation.get f = 0 ∧ (t.chan n).cal.factor.get f = 1024) ∧
      t.walker.cursors.get n = none ∧ t.walker.keepouts.get n = none ∧ t.walker.waiting.get n = false ∧
      (t.link n).rx = .hunt ∧ (t.link n).header = none ∧ (t.link n).queue = [] ∧
      (∀ e : LinkError, (t.link n).flags.get e = false ∧
        ((t.link n).enables.get e = true ↔ e ≠ .syncCorrected)) ∧
      (t.link n).errors = 0 ∧ (t.link n).lastKind = none ∧ (t.link n).lastSource = none ∧
      (t.link n).policy = .auto ∧ (t.link n).strict = true ∧
      (t.txs.get n).sending = none ∧ (t.txs.get n).waiting = []) ∧
    t.walker.clearance = 2 ∧ t.walker.seek = none ∧
    (∀ k : Fin 4, (t.seats.get k).held = none ∧ (t.seats.get k).expiry = none) ∧
    t.engine = 7 ∧ t.hand = none ∧ t.interlock = { low := false, changeCount := 0, latch := false } ∧
    t.port.mode = .idle ∧ t.port.received = [] ∧ t.port.response = none ∧ t.port.overrun = false ∧ t.ready = false ∧ t.attn = false ∧
    t.notices.pending = [] ∧ t.notices.overflow = false ∧ t.notices.floor = 0 ∧
    t.notices.levels.toList = [7, 6, 4, 3, 3, 2, 2, 1, 5, 1, 1]

/-- RESET# in effect (R21, R64, R98, R124, R159, R178, R185, R193 as far as said here): every channel is OFF with no
claim, its configuration and calibration kept; the seats are free, the links in HUNT with their settings kept, the
port IDLE; the map, its parameters, its phase and its watches are kept, and so is each tube's record but its state,
claim and worst final depth; no entry is left RESOLVING, and every other entry is as it was. A tube that no claim
names and that has no RESOLVING entry keeps its whole record (R21). An entry returned from RESOLVING posts the watch
slots on its tube (R40), and the tube, where no claim names it, keeps its record but for an evaluation (R175, R178).
The notices pending afterwards are the reset's own (R193): in ACTIVE the completion flag is armed and the check
applied (R19), and the pool warning is armed and judged (R155). A report in hand is lost with the queues (log 13). A
measurement that waits at a channel is discarded (R139), and no mark stays on its way (log 5). -/
def Obligations.ResetKeepsRecords : Prop :=
  ∀ s : State, s.held = false → sparseWf emptySlot s.store.pool = true → ∃ t, exec .reset s = .next t ∧
    t.held = true ∧ t.pending = s.pending ∧ t.freqs = s.freqs ∧
    (∀ n : Fin 8,
      (t.chan n).state = .off ∧ (t.chan n).prior = none ∧ (t.chan n).interrupted = none ∧
      (t.chan n).claim = none ∧ (t.chan n).timer.mode = .stopped ∧ (t.chan n).timer.count = 0 ∧
      (t.chan n).lastCount = none ∧ (t.chan n).exhausted = false ∧
      (t.chan n).filing = none ∧ (t.chan n).overtravelMarks = 0 ∧ (t.chan n).gapMarks = 0 ∧
      (t.chan n).config = (s.chan n).config ∧ (t.chan n).cal = (s.chan n).cal ∧
      t.cancels.get n = (s.chan n).claim.map Claim.echo ∧
      t.walker.cursors.get n = none ∧ t.walker.waiting.get n = false ∧
      (t.link n).rx = .hunt ∧ (t.link n).header = none ∧ (t.link n).gathered = [] ∧ (t.link n).queue = [] ∧
      (t.link n).flags = LinkFlags.none ∧ (t.link n).errors = 0 ∧ (t.link n).lastKind = none ∧
      (t.link n).lastSource = none ∧ (t.link n).policy = (s.link n).policy ∧
      (t.link n).strict = (s.link n).strict ∧ (t.link n).enables = (s.link n).enables ∧
      (t.txs.get n).sending = none ∧ (t.txs.get n).waiting = []) ∧
    t.walker.keepouts = s.walker.keepouts ∧ t.walker.clearance = s.walker.clearance ∧ t.walker.seek = none ∧
    (∀ k : Fin 4, (t.seats.get k).held = none ∧ (t.seats.get k).expiry = none) ∧
    t.engine = 7 ∧ t.hand = none ∧ t.interlock = { low := false, changeCount := 0, latch := false } ∧
    t.port.mode = .idle ∧ t.port.received = [] ∧ t.port.work = none ∧ t.port.response = none ∧ t.port.overrun = false ∧
    t.notices.levels = s.notices.levels ∧ t.notices.floor = s.notices.floor ∧
    t.map.directory = s.map.directory ∧ t.map.params = s.map.params ∧ t.map.landmarks = s.map.landmarks ∧
    t.map.phase = s.map.phase ∧ t.map.campaign = s.map.campaign ∧ t.map.watches = s.map.watches ∧
    t.map.tubes.length = s.map.tubes.length ∧
    (∀ (i : Nat) (u v : Tube), s.tube i = some u → t.tube i = some v →
      v = { u with state := v.state, claim := v.claim, worstFinal := v.worstFinal }) ∧
    (∀ (i : Nat) (u : Tube), s.tube i = some u →
      (∀ (n : Fin 8) (k : Claim), (s.chan n).claim = some k → k.tube ≠ i) →
      (∀ (n : Nat) (e : Entry), s.store.entry n = some e → e.status = .resolving → e.tube ≠ i) →
      t.tube i = some u) ∧
    (∀ (n : Nat) (e : Entry), s.store.entry n = some e → e.status = .resolving → s.watched t e.tube ∧
      ∀ u : Tube, s.tube e.tube = some u →
        (∀ (m : Fin 8) (k : Claim), (s.chan m).claim = some k → k.tube ≠ e.tube) →
        (∀ (x : Nat) (f : Entry), s.store.entry x = some f → f.status = .resolving →
          (x ∈ u.entries ↔ f.tube = e.tube)) →
        t.tube e.tube = some (u.evaluated s.map.params.plugLimit t.store)) ∧
    (∀ m ∈ t.notices.pending, m.cls = .watch ∨ m.cls = .blocked ∨ m.cls = .plugCall ∨ m.cls = .campaignComplete ∨
      m.cls = .pool) ∧
    ((∀ n : Fin 8, (s.chan n).claim = none) →
      (∀ (n : Nat) (e : Entry), s.store.entry n = some e → e.status ≠ .resolving) →
      ∀ u v : NoticeUnit, u = { s.notices with pending := [], overflow := false } →
        v = (if s.map.phase = .active ∧ s.map.census.plannedOpen = 0 ∧ 0 < s.map.census.planned
          then u.post .campaignComplete 0 else u) →
        t.notices = if s.store.free.count ≤ s.map.params.poolLevel then v.post .pool 0 else v) ∧
    (s.map.phase ≠ .active → t.map.armed = s.map.armed) ∧
    (s.map.phase = .active →
      t.map.armed = !decide (t.map.census.plannedOpen = 0 ∧ 0 < t.map.census.planned) ∧
      (t.map.armed = false → t.notices.told .campaignComplete 0)) ∧
    t.store.warnArmed = decide (s.map.params.poolLevel < s.store.free.count) ∧
    (t.store.warnArmed = false → t.notices.told .pool 0) ∧
    t.store.free = s.store.free ∧
    ∀ (n : Nat), (t.store.slot n).issue = (s.store.slot n).issue ∧
      t.store.entry n = (s.store.entry n).map (fun e =>
        if e.status = .resolving then { e with status := .disputed, holder := none, resolution := none } else e)

/-- RESET# releases a claim without outcome (R21, R25): a CLAIMED tube returns to its prior state, an IN_TEST one
becomes RETEST, attempts and passes unchanged. Read where one channel alone claims the tube and no entry is RESOLVING.
The watch slots on a tube whose state so changes post (R40, R41). At the end of the reset (R64) the part runs again, and
each channel whose claim the reset released sends CANCEL with that claim's echo; a channel that held none sends nothing.
-/
def Obligations.ResetReleasesClaims : Prop :=
  (∀ (s : State) (n : Fin 8) (k : Claim) (u : Tube), s.held = false →
     (s.chan n).claim = some k → s.tube k.tube = some u →
     (∀ (m : Fin 8) (j : Claim), (s.chan m).claim = some j → j.tube = k.tube → m = n) →
     (∀ (i : Nat) (e : Entry), s.store.entry i = some e → e.status ≠ .resolving) →
     ∃ t, exec .reset s = .next t ∧
       (u.state = .claimed → t.tube k.tube = some { u with claim := none, state := k.prior }) ∧
       (u.state = .inTest → t.tube k.tube = some { u with claim := none, state := .retest }) ∧
       (u.state = .inTest ∨ (u.state = .claimed ∧ k.prior.claimable = true) → s.watched t k.tube)) ∧
  ∀ s : State, s.held = true → ∃ t, exec .resetEnd s = .next t ∧
    t = { s with held := false, cancels := Eight.fill none, txs := t.txs } ∧
    ∀ n : Fin 8,
      (s.cancels.get n = none → t.txs.get n = s.txs.get n) ∧
      ∀ e : Echo, s.cancels.get n = some e →
        t.txs.get n = (s.txs.get n).enqueue { kind := .cancel, echo := e }


/-! ## The command port -/

/-- A request transfer begun in EXECUTING or RESPONDING is an overrun (R184): the OVERRUN flag is set, a held response
carries it, and nothing else of the part changes but the record of MISO: 00h, or first the first byte of the held
response (R179). That a request row arriving then is such a transfer is log 9. -/
def Obligations.RequestsOverrun : Prop :=
  ∀ (c : Instr) (s : State),
    c = .overrun ∨ c.request.isSome = true ∨
      (∃ (b : Byte) (l : List Byte) (ends : Bool), b ≠ 0#8 ∧ c = .requestTransferRefused ⟨b :: l, ends⟩) →
    s.held = false → s.port.mode = .executing ∨ s.port.mode = .responding →
    ∃ t, exec c s = .next t ∧ t = { s with port := t.port } ∧
      t.port = { s.port with overrun := true, response := t.port.response, miso := t.port.miso } ∧
      (s.port.mode = .executing → t.port.response = s.port.response ∧ t.port.miso = [0#8]) ∧
      (s.port.mode = .responding →
        t.port.response = s.port.response.map (fun r => { r with overrun := true }) ∧
        ∀ r : Response, s.port.response = some r → t.port.miso = r.frame.take 1)

/-- Checks 1 to 4 of R181 (R182, R194). A role that is none of the five or not permitted is refused with ROLE, and then
a phase not permitted with PHASE; the body is empty and nothing but the port changes. A request transfer by its bytes:
without its end the port is RECEIVING (R180); at its end a wrong length or CRC is refused with FORMAT, an unknown
command code with UNKNOWN, the command byte echoing the second byte received or 00h, and a good frame of a known command
is checked under the role and seat of its third byte (bits 3 and 2 ignored) and executed as the command its body spells.
The fields of every body stand at the bytes of 11.1 (`requestsSpelled`); the form of a list and of the keep flags in a
body, the unused bits, and that a body that does not spell its fields is refused with RANGE, is log 23. Last, the
permission table of R182. -/
def Obligations.PortRefusals : Prop :=
  (∀ (c : Instr) (cmd : Command) (rq : Requester) (s : State), c.request = some (cmd, rq) → s.open = true →
     (roleOf rq.role = none → exec c s = .next (s.answer cmd .role [])) ∧
     ∀ r : Role, roleOf rq.role = some r →
       (cmd.permitsRole r = false → exec c s = .next (s.answer cmd .role [])) ∧
       (cmd.permitsRole r = true → cmd.permitsPhase s.map.phase = false →
         exec c s = .next (s.answer cmd .phase []))) ∧
  (∀ (s : State) (l total : List Byte) (code who : Byte), s.open = true →
    (s.port.mode = .idle → l.headD 0#8 ≠ 0#8 ∧ total = l) →
    (s.port.mode = .receiving → total = s.port.received ++ l) →
    code = (total.drop 1).headD 0#8 → who = (total.drop 2).headD 0#8 →
    exec (.requestTransferRefused ⟨l, false⟩) s =
      .next { s with port := { s.port with mode := .receiving, received := total, miso := [0#8] } } ∧
    ((total.headD 0#8).toNat < 5 ∨ total.length ≠ (total.headD 0#8).toNat ∨
        bytesNat (total.drop (total.length - 2)) ≠ crc16 (total.take (total.length - 2)) →
      exec (.requestTransferRefused ⟨l, true⟩) s = .next (s.reply code .format [])) ∧
    (5 ≤ (total.headD 0#8).toNat → total.length = (total.headD 0#8).toNat →
      bytesNat (total.drop (total.length - 2)) = crc16 (total.take (total.length - 2)) →
      (code.toNat = 0 ∨ 42 < code.toNat →
        exec (.requestTransferRefused ⟨l, true⟩) s = .next (s.reply code .unknown [])) ∧
      ∀ (cmd : Command) (rq : Requester), cmd.code = code → rq.role = who.toNat / 16 → rq.seat.val = who.toNat % 4 →
        (roleOf rq.role = none → exec (.requestTransferRefused ⟨l, true⟩) s = .next (s.answer cmd .role [])) ∧
        (∀ r : Role, roleOf rq.role = some r →
          (cmd.permitsRole r = false →
            exec (.requestTransferRefused ⟨l, true⟩) s = .next (s.answer cmd .role [])) ∧
          (cmd.permitsRole r = true → cmd.permitsPhase s.map.phase = false →
            exec (.requestTransferRefused ⟨l, true⟩) s = .next (s.answer cmd .phase []))) ∧
        (∀ c : Instr, requestOf cmd rq ((total.drop 3).take (total.length - 5)) = some c →
          c.request = some (cmd, rq) ∧ exec (.requestTransferRefused ⟨l, true⟩) s = exec c s) ∧
        (requestOf cmd rq ((total.drop 3).take (total.length - 5)) = none → s.takes cmd rq = true →
          exec (.requestTransferRefused ⟨l, true⟩) s = .next (s.answer cmd .range [])))) ∧
  (∀ rq : Requester, requestsSpelled rq) ∧
  (∀ n : Nat, roleOf n = (if n = 1 then some .planner else if n = 2 then some .crew else if n = 3 then some .primary
    else if n = 4 then some .secondary else if n = 5 then some .resolver else none)) ∧
  (∀ (c : Command) (r : Role), c.permitsRole r =
    if c.code.toNat ≤ 10 then decide (r = .planner)
    else if c.code.toNat ≤ 23 then decide (r = .planner ∨ r = .crew)
    else if c = .plugTube ∨ c = .unblockTube then decide (r = .crew)
    else if c = .submitCall ∨ c = .reviewDone then decide (r = .primary ∨ r = .secondary)
    else if c = .takeEntry ∨ c = .resolveEntry ∨ c = .releaseEntry then decide (r = .resolver)
    else if c = .requestRetest then decide (r = .primary ∨ r = .secondary ∨ r = .resolver)
    else true) ∧
  ∀ (c : Command) (p : Phase), c.permitsPhase p =
    if c.code.toNat ≤ 6 then decide (p = .layout)
    else if c = .newCampaign ∨ c = .prepareLayout then decide (p = .closed)
    else if c = .planRegion then decide (p = .layout ∨ p = .active)
    else if c = .closeCampaign ∨ c = .startChannel ∨ c = .assignTube ∨ c = .unblockTube ∨ c = .submitCall ∨
        c = .reviewDone ∨ c = .takeEntry ∨ c = .resolveEntry ∨ c = .releaseEntry ∨ c = .requestRetest then
      decide (p = .active)
    else true

/-- Check 5 of R181 for the fields it names: a channel, link, region or clearance above 7, a slot above 3, a level or
floor above 7, an entry number above 16,383, a DEPTH above 100, an unknown call code, an unknown PLAN_REGION action, a
tube name of an unknown selector or off the grid, a position off the grid, a calibration value out of its range (R54) is
refused with RANGE, and nothing but the port changes. That a row or a column off the grid, which bytes cannot carry, is
such a refusal is the model's choice (log 20). -/
def Obligations.RangeRefuses : Prop :=
  ∀ (rq : Requester) (s : State) (n : Nat), 7 < n →
    (∀ f, s.takes .configureChannel rq = true →
      exec (.configureChannel rq n f) s = .next (s.answer .configureChannel .range [])) ∧
    (∀ f, s.takes .setChannelCal rq = true →
      exec (.setChannelCal rq n f) s = .next (s.answer .setChannelCal .range [])) ∧
    (∀ d b, s.takes .setKeepout rq = true →
      exec (.setKeepout rq n d b) s = .next (s.answer .setKeepout .range [])) ∧
    (s.takes .setClearance rq = true → exec (.setClearance rq n) s = .next (s.answer .setClearance .range [])) ∧
    (s.takes .startChannel rq = true → exec (.startChannel rq n) s = .next (s.answer .startChannel .range [])) ∧
    (s.takes .stopChannel rq = true → exec (.stopChannel rq n) s = .next (s.answer .stopChannel .range [])) ∧
    (s.takes .abandon rq = true → exec (.abandon rq n) s = .next (s.answer .abandon .range [])) ∧
    (s.takes .resume rq = true → exec (.resume rq n) s = .next (s.answer .resume .range [])) ∧
    (s.takes .channelReset rq = true → exec (.channelReset rq n) s = .next (s.answer .channelReset .range [])) ∧
    (∀ name, s.takes .assignTube rq = true →
      exec (.assignTube rq n name) s = .next (s.answer .assignTube .range [])) ∧
    (∀ p b e, s.takes .setLink rq = true → exec (.setLink rq n p b e) s = .next (s.answer .setLink .range [])) ∧
    (s.takes .restartLink rq = true → exec (.restartLink rq n) s = .next (s.answer .restartLink .range [])) ∧
    (s.takes .readChannel rq = true → exec (.readChannel rq n) s = .next (s.answer .readChannel .range [])) ∧
    (s.takes .readLink rq = true → exec (.readLink rq n) s = .next (s.answer .readLink .range [])) ∧
    (∀ cls, s.takes .setNoticeLevel rq = true →
      exec (.setNoticeLevel rq cls n) s = .next (s.answer .setNoticeLevel .range [])) ∧
    (s.takes .setFloor rq = true → exec (.setFloor rq n) s = .next (s.answer .setFloor .range [])) ∧
    (∀ slot p, 3 < slot → s.takes .setWatch rq = true →
      exec (.setWatch rq slot p) s = .next (s.answer .setWatch .range [])) ∧
    (∀ ref code d, 16383 < ref.number → s.takes .submitCall rq = true →
      exec (.submitCall rq ref code d) s = .next (s.answer .submitCall .range [])) ∧
    (∀ ref, 16383 < ref.number → s.takes .takeEntry rq = true →
      exec (.takeEntry rq ref) s = .next (s.answer .takeEntry .range [])) ∧
    (∀ ref, 16383 < ref.number → s.takes .readEntry rq = true →
      exec (.readEntry rq ref) s = .next (s.answer .readEntry .range [])) ∧
    (∀ code d, code = 0 ∨ 4 < code ∨ (code = 1 ∧ 100 < d) →
      (s.takes .resolveEntry rq = true →
        exec (.resolveEntry rq code d) s = .next (s.answer .resolveEntry .range [])) ∧
      ∀ ref, s.takes .submitCall rq = true →
        exec (.submitCall rq ref code d) s = .next (s.answer .submitCall .range [])) ∧
    (∀ name, (∃ k, name = .other k) ∨ (∃ p, name = .position p ∧ (255 < p.row ∨ 255 < p.col)) →
      (∀ ch, s.takes .assignTube rq = true →
        exec (.assignTube rq ch name) s = .next (s.answer .assignTube .range [])) ∧
      (s.takes .plugTube rq = true → exec (.plugTube rq name) s = .next (s.answer .plugTube .range [])) ∧
      (s.takes .unblockTube rq = true → exec (.unblockTube rq name) s = .next (s.answer .unblockTube .range [])) ∧
      (∀ ack, s.takes .reviewDone rq = true →
        exec (.reviewDone rq name ack) s = .next (s.answer .reviewDone .range [])) ∧
      (s.takes .requestRetest rq = true →
        exec (.requestRetest rq name) s = .next (s.answer .requestRetest .range [])) ∧
      (s.takes .readTube rq = true → exec (.readTube rq name) s = .next (s.answer .readTube .range []))) ∧
    (∀ p : Pos, 255 < p.row ∨ 255 < p.col →
      (∀ x, s.takes .findTube rq = true → exec (.findTube rq p x) s = .next (s.answer .findTube .range [])) ∧
      ∀ slot, s.takes .setWatch rq = true →
        exec (.setWatch rq slot (some p)) s = .next (s.answer .setWatch .range [])) ∧
    (∀ (b : Bounds) (a : Nat), 1 < a → s.takes .planRegion rq = true →
      exec (.planRegion rq b a) s = .next (s.answer .planRegion .range [])) ∧
    ∀ (ch : Nat) (f : CalFields),
      (∃ v, f.scale = some v ∧ (v < 1 ∨ 1000 < v)) ∨ (∃ k v, f.rotation.get k = some v ∧ 3599 < v) ∨
        (∃ k v, f.factor.get k = some v ∧ (v < 1 ∨ 4095 < v)) →
      s.takes .setChannelCal rq = true →
      exec (.setChannelCal rq ch f) s = .next (s.answer .setChannelCal .range [])


/-- What answers a request leaves the port RESPONDING with the response held, nothing received and no work, and the
OVERRUN flag as it stands in both (R180, R183); MISO carried 00h in a request transfer (R179; the record is log 21).
READY is high in RESPONDING alone. So every request taken leaves the port RESPONDING with its command's response or,
for a long command alone, EXECUTING with work in hand (R180, R183; READ_TUBE is log 7). A read transfer (R183, R194):
a held response is sent from its first byte; read whole, it is discarded, OVERRUN is cleared and the port is IDLE;
read in part, it stays held. Without a held response every byte is 00h. In RECEIVING, where a transfer is in progress,
none begins and nothing changes (log 1). The response frame: its two-byte length is its number of bytes, then the
command, the status, the flags byte with OVERRUN in bit 0 (R184) and the body, and its CRC-16 is that of the rest. The
CRC-16 starts from FFFFh and takes each byte most significant bit first under the generator 1021h. -/
def Obligations.ReadTransferSends : Prop :=
  (∀ (s : State) (cmd : Command) (code : Byte) (status : Status) (body : List Byte),
     s.reply code status body = { s with port :=
       { mode := .responding, received := [], work := none, overrun := s.port.overrun, miso := [0#8],
         response := some { command := code, status, overrun := s.port.overrun, body } } } ∧
     s.answer cmd status body = s.reply cmd.code status body ∧
     s.complete cmd status body = { s with port :=
       { mode := .responding, received := [], work := none, overrun := s.port.overrun, miso := s.port.miso,
         response := some { command := cmd.code, status, overrun := s.port.overrun, body } } } ∧
     (s.ready = true ↔ s.held = false ∧ s.port.mode = .responding)) ∧
  (∀ (c : Instr) (cmd : Command) (rq : Requester) (s : State), c.request = some (cmd, rq) → s.open = true →
     ∃ t, exec c s = .next t ∧ t.held = false ∧
       ((∃ r : Response, r.command = cmd.code ∧ r.overrun = s.port.overrun ∧
           t.port = { mode := .responding, received := [], work := none, overrun := s.port.overrun, miso := [0#8],
                      response := some r }) ∨
         ((cmd = .clearLayout ∨ cmd = .newCampaign ∨ cmd = .prepareLayout ∨ cmd = .planRegion ∨ cmd = .readTube ∨
             cmd = .findTube) ∧ s.takes cmd rq = true ∧
           ∃ w : Work, t.port = { s.port with mode := .executing, received := [], work := some w, miso := [0#8] }))) ∧
  (∀ (s : State) (count : Nat), s.held = false → 0 < count →
     (∀ r : Response, s.port.mode = .responding → s.port.response = some r →
       (r.frame.length ≤ count →
         exec (.readTransfer count) s = .next { s with
           port := { mode := .idle, received := [], work := none, response := none, overrun := false,
                     miso := r.frame ++ List.replicate (count - r.frame.length) 0#8 } }) ∧
       (count < r.frame.length →
         exec (.readTransfer count) s = .next { s with port := { s.port with miso := r.frame.take count } })) ∧
     (s.port.mode = .receiving → exec (.readTransfer count) s = .next s) ∧
     (s.port.mode ≠ .responding → s.port.mode ≠ .receiving →
       exec (.readTransfer count) s = .next { s with port := { s.port with miso := List.replicate count 0#8 } })) ∧
  ∀ r : Response, r.body.length + 7 < 65536 →
    r.frame.length = r.body.length + 7 ∧ bytesNat (r.frame.take 2) = r.frame.length ∧
    (r.frame.drop 2).take 3 = [r.command, BitVec.ofNat 8 r.status.code, if r.overrun then 1#8 else 0#8] ∧
    (r.frame.drop 5).take r.body.length = r.body ∧
    bytesNat (r.frame.drop (r.frame.length - 2)) = crc16 (r.frame.take (r.frame.length - 2)) ∧
    crc16 [] = 0xFFFF ∧
    (∀ (l : List Byte) (b : Byte), crc16 (l ++ [b]) = crc16Bit^[8] (crc16 l ^^^ (256 * b.toNat))) ∧
    ∀ v, v < 65536 → crc16Bit v = if v < 32768 then 2 * v else (2 * v - 65536) ^^^ 0x1021


/-- The long commands begin (R6, R12, R13, R16, R17): the port is EXECUTING, and CLEAR_LAYOUT has emptied the watch
slots. One ends when its work is done, and its response carries the OVERRUN flag as it then stands (R183): CLEAR_LAYOUT
when no tube is left (R6), a rollover past the last tube (R12, R13), PLAN_REGION when no tube of the rectangle is left
to visit (R16), FIND_TUBE with a match or past 255/255 (R17). That a COMMAND_COMPLETE before that changes nothing is the
model's choice (log 1), and so are the two bytes in which CLEAR_LAYOUT and PLAN_REGION answer their counts (log 8). The
action codes of PLAN_REGION are 0 and 1 in the order of R16 (11.1). At the end of NEW_CAMPAIGN the completion flag is
armed and the check applied once (R12, R19). The answer of FIND_TUBE is the six bytes of 11.4. -/
def Obligations.LongCommands : Prop :=
  (∀ (rq : Requester) (s : State),
     (s.takes .clearLayout rq = true →
       exec (.clearLayout rq) s =
         .next { s with map := { s.map with watches := Four.fill none },
                        port := { s.port with mode := .executing, received := [], miso := [0#8], work := some (.clearLayout 0) } }) ∧
     (s.takes .newCampaign rq = true →
       exec (.newCampaign rq) s =
         .next { s with port := { s.port with mode := .executing, received := [], miso := [0#8], work := some (.newCampaign 0) } }) ∧
     (s.takes .prepareLayout rq = true →
       exec (.prepareLayout rq) s =
         .next { s with port := { s.port with mode := .executing, received := [], miso := [0#8], work := some (.prepareLayout 0) } }) ∧
     (∀ (b : Bounds) (a : PlanAction), s.takes .planRegion rq = true →
       exec (.planRegion rq b (if a = .set then 0 else 1)) s =
         .next { s with port := { s.port with mode := .executing, received := [], miso := [0#8], work := some (.planRegion b.clamped a 0 0) } }) ∧
     ∀ (p : Pos) (x : BitVec 10), s.takes .findTube rq = true → p.inGrid = true →
       exec (.findTube rq p x) s =
         .next { s with port := { s.port with mode := .executing, received := [], miso := [0#8], work := some (.findTube x p.cell none) } }) ∧
  ∀ s : State, s.held = false → s.port.mode = .executing →
    (∀ removed, s.port.work = some (.clearLayout removed) →
      (s.map.tubes = [] → exec .commandComplete s = .next (s.complete .clearLayout .ok (byte2 removed))) ∧
      (s.map.tubes ≠ [] → exec .commandComplete s = .next s)) ∧
    (∀ next, s.port.work = some (.newCampaign next) →
      (s.map.tubes.length ≤ next → ∃ complete : Bool,
        complete = decide (s.map.census.plannedOpen = 0 ∧ 0 < s.map.census.planned) ∧
        exec .commandComplete s = .next (State.complete
          { s with
            map := { s.map with phase := .active, campaign := (s.map.campaign + 1) % 65536, armed := !complete }
            notices := if complete then s.notices.post .campaignComplete 0 else s.notices }
          .newCampaign .ok (byte2 ((s.map.campaign + 1) % 65536)))) ∧
      (next < s.map.tubes.length → exec .commandComplete s = .next s)) ∧
    (∀ next, s.port.work = some (.prepareLayout next) →
      (s.map.tubes.length ≤ next →
        exec .commandComplete s =
          .next (State.complete { s with map := { s.map with phase := .layout } } .prepareLayout .ok [])) ∧
      (next < s.map.tubes.length → exec .commandComplete s = .next s)) ∧
    (∀ r a next changed, s.port.work = some (.planRegion r a next changed) →
      (s.map.nextInRegion r next = none →
        exec .commandComplete s = .next (s.complete .planRegion .ok (byte2 changed))) ∧
      (s.map.nextInRegion r next ≠ none → exec .commandComplete s = .next s)) ∧
    ∀ x next found, s.port.work = some (.findTube x next found) →
      (found ≠ none ∨ 65536 ≤ next →
        exec .commandComplete s = .next (s.complete .findTube .ok (findBody found))) ∧
      (found = none → next < 65536 → exec .commandComplete s = .next s) ∧
      (found = none → findBody found = List.replicate 6 0#8) ∧
      ∀ f : Found, found = some f → findBody found =
        [1#8, BitVec.ofNat 8 (f.index / 256), BitVec.ofNat 8 f.index, BitVec.ofNat 8 f.pos.row,
         BitVec.ofNat 8 f.pos.col, BitVec.ofNat 8 f.state.code]


/-! ## Layout and campaign -/

/-- DEFINE_TUBES (R5) with room for its whole run: the free positions of the run, in ascending column order, receive
the next tube indices, with records of the values of R2; tubes that stand in the run are not touched, at the tube limit
too; the signal of R37 reaches every channel when a tube is declared; the response counts both. That each count takes
two bytes is the model's choice (log 8); the presence byte and the index are 11.1's. -/
def Obligations.DefineTubesDeclares : Prop :=
  ∀ (rq : Requester) (s : State) (row first last step zone : Nat) (planned : Bool) (free : List Nat),
    s.takes .defineTubes rq = true → row < 256 → first ≤ last → last < 256 → step = 1 ∨ step = 2 → zone < 16 →
    free = (runColumns first last step).filter (fun c => (s.map.at { row, col := c }).isNone) →
    s.map.tubes.length + free.length ≤ 32768 →
    ∃ t, exec (.defineTubes rq row first last step zone planned) s = .next t ∧
      s.declares t row zone planned free ∧
      t.port.response = some
        { command := 0x01#8, status := .ok, overrun := s.port.overrun,
          body := byte2 free.length ++ byte2 ((runColumns first last step).length - free.length) ++
            (if free = [] then [0#8, 0#8, 0#8] else 1#8 :: byte2 s.map.tubes.length) }

/-- DEFINE_TUBES at the tube limit (R5): a run that reaches a free position with 32,768 tubes declared stops there with
status FULL. The positions before it are declared or, where a tube stands, skipped; none after it is touched; the
response counts them, in the form of log 8. A request out of the ranges of R4 is refused with RANGE. The columns a run
visits (R4): from the first column by the step, those that do not pass the last. -/
def Obligations.DefineTubesLimits : Prop :=
  (∀ (rq : Requester) (s : State) (row first last step zone : Nat) (planned : Bool) (before after free : List Nat)
     (stop : Nat),
     s.takes .defineTubes rq = true → row < 256 → first ≤ last → last < 256 → step = 1 ∨ step = 2 → zone < 16 →
     runColumns first last step = before ++ stop :: after → s.map.at { row, col := stop } = none →
     free = before.filter (fun c => (s.map.at { row, col := c }).isNone) →
     s.map.tubes.length + free.length = 32768 →
     ∃ t, exec (.defineTubes rq row first last step zone planned) s = .next t ∧
       s.declares t row zone planned free ∧
       t.port.response = some
         { command := 0x01#8, status := .full, overrun := s.port.overrun,
           body := byte2 free.length ++ byte2 (before.length - free.length) ++
             (if free = [] then [0#8, 0#8, 0#8] else 1#8 :: byte2 s.map.tubes.length) }) ∧
  (∀ (rq : Requester) (s : State) (row first last step zone : Nat) (planned : Bool),
     s.takes .defineTubes rq = true →
     255 < row ∨ 255 < first ∨ 255 < last ∨ (step ≠ 1 ∧ step ≠ 2) ∨ 15 < zone ∨ last < first →
     exec (.defineTubes rq row first last step zone planned) s = .next (s.answer .defineTubes .range [])) ∧
  ∀ first last step : Nat, first ≤ last → step = 1 ∨ step = 2 →
    (runColumns first last step).Pairwise (· < ·) ∧
    ∀ c, c ∈ runColumns first last step ↔ first ≤ c ∧ c ≤ last ∧ (c - first) % step = 0

/-- CLEAR_LAYOUT_TUBE (R6): the tube of highest index is removed, its cell returns to "no tube", its entries are
retired, the census lowered; the other tubes, cells and entries are as they were. Retired entries go to the tail of the
free list in list order (R156), and the pool warning is armed again once the free count is above the level (R155). The
completion check follows a change of its counts (R19). -/
def Obligations.ClearLayoutRemovesLast : Prop :=
  ∀ (s : State) (removed : Nat) (l : List Tube) (t : Tube), s.held = false → s.port.mode = .executing →
    s.port.work = some (.clearLayout removed) → s.map.tubes = l ++ [t] →
    ∃ u, exec .clearLayoutTube s = .next u ∧ u.map.tubes = l ∧ u.map.at t.pos = none ∧
      (∀ p : Pos, p.inGrid = true → p.cell ≠ t.pos.cell → u.map.at p = s.map.at p) ∧
      u.map.census = s.map.census.leave t ∧
      (∀ n ∈ t.entries, u.store.entry n = none) ∧ (∀ n, n ∉ t.entries → u.store.slot n = s.store.slot n) ∧
      (t.entries.Nodup → (∀ n ∈ t.entries, s.store.entry n ≠ none) →
        u.store.free.toList = s.store.free.toList ++ t.entries) ∧
      ((∃ n ∈ t.entries, s.store.entry n ≠ none) →
        u.store.warnArmed = decide (s.map.params.poolLevel < u.store.free.count)) ∧
      (s.store.warnArmed = true → u.store.warnArmed = false → u.notices.told .pool 0) ∧
      s.completes u ∧ u.port = { s.port with work := some (.clearLayout (removed + 1)) } ∧
      u = { s with
        map := { s.map with directory := u.map.directory, tubes := l, census := u.map.census, armed := u.map.armed }
        store := u.store, seats := u.seats, notices := u.notices, port := u.port }

/-- SET_LANDMARKS and SET_CAMPAIGN (R7, R8): an accepted list replaces the table and leaves it set; present values
replace their parameters and absent ones leave theirs. LOAD_CURVE (R126): a list that breaks the curve conditions is
refused with CURVE_INVALID (from 2 to 8 points, phases to 3599 and rising, depths to 100); otherwise the threshold is
set, and the curve replaced unless the list is empty. A refused request changes nothing but the port. The bytes in which
SET_CAMPAIGN and LOAD_CURVE answer are log 8's. That a refusal by the command's own check carries an empty body is log
25's. -/
def Obligations.LayoutSettings : Prop :=
  (∀ (rq : Requester) (s : State),
     (∀ l : List Nat, s.takes .setLandmarks rq = true →
       (l.length ≤ 14 ∧ (∀ p ∈ l, 1 ≤ p ∧ p ≤ s.map.params.length - 1) ∧ l.Pairwise (· < ·) →
         exec (.setLandmarks rq l) s =
           .next (State.answer { s with map := { s.map with landmarks := some l } } .setLandmarks .ok [])) ∧
       (14 < l.length ∨ (∃ p ∈ l, p < 1 ∨ s.map.params.length - 1 < p) ∨ ¬ l.Pairwise (· < ·) →
         exec (.setLandmarks rq l) s = .next (s.answer .setLandmarks .range []))) ∧
     ∀ f : CampaignFields, s.takes .setCampaign rq = true →
       (f.inRange = true → ∃ p : Params,
         exec (.setCampaign rq f) s =
           .next (State.answer { s with map := { s.map with params := p } } .setCampaign .ok (paramsBody p)) ∧
         p = { length := f.length.getD s.map.params.length, plugLimit := f.plugLimit.getD s.map.params.plugLimit,
               tolerance := f.tolerance.getD s.map.params.tolerance,
               mergeWindow := f.mergeWindow.getD s.map.params.mergeWindow,
               growth := f.growth.getD s.map.params.growth,
               attemptLimit := f.attemptLimit.getD s.map.params.attemptLimit,
               overtravel := f.overtravel.getD s.map.params.overtravel,
               holdLimit := f.holdLimit.getD s.map.params.holdLimit,
               poolLevel := f.poolLevel.getD s.map.params.poolLevel }) ∧
       (f.inRange = false → exec (.setCampaign rq f) s = .next (s.answer .setCampaign .range [])) ∧
       (f.inRange = true ↔ (∀ v, f.length = some v → 3000 ≤ v ∧ v ≤ 20000) ∧
         (∀ v, f.plugLimit = some v → 1 ≤ v ∧ v ≤ 100) ∧ (∀ v, f.tolerance = some v → v ≤ 50) ∧
         (∀ v, f.mergeWindow = some v → 1 ≤ v ∧ v ≤ 50) ∧ (∀ v, f.growth = some v → 1 ≤ v ∧ v ≤ 100) ∧
         (∀ v, f.attemptLimit = some v → 1 ≤ v ∧ v ≤ 7) ∧ (∀ v, f.overtravel = some v → v ≤ 500) ∧
         (∀ v, f.holdLimit = some v → 1 ≤ v ∧ v ≤ 255) ∧ (∀ v, f.poolLevel = some v → v ≤ 16383))) ∧
  ∀ (rq : Requester) (s : State) (freq threshold : Nat) (points : List CurvePoint),
    s.takes .loadCurve rq = true →
    (curveValid points = true ↔ 2 ≤ points.length ∧ points.length ≤ 8 ∧
      (∀ p ∈ points, p.phase ≤ 3599 ∧ p.depth ≤ 100) ∧ (points.map CurvePoint.phase).Pairwise (· < ·)) ∧
    (freq < 1 ∨ 4 < freq ∨ threshold < 1 ∨ 4096 < threshold →
      exec (.loadCurve rq freq threshold points) s = .next (s.answer .loadCurve .range [])) ∧
    ∀ k : Fin 4, freq = k.val + 1 → 1 ≤ threshold → threshold ≤ 4096 →
      (points ≠ [] → curveValid points = false →
        exec (.loadCurve rq freq threshold points) s = .next (s.answer .loadCurve .curveInvalid [])) ∧
      (points = [] →
        exec (.loadCurve rq freq threshold points) s =
          .next (State.answer
            { s with freqs := s.freqs.set k { threshold, curve := (s.freqs.get k).curve } } .loadCurve .ok
            (freqBody { threshold, curve := (s.freqs.get k).curve }))) ∧
      (curveValid points = true →
        exec (.loadCurve rq freq threshold points) s =
          .next (State.answer { s with freqs := s.freqs.set k { threshold, curve := some points } } .loadCurve .ok
            (freqBody { threshold, curve := some points })))


/-- OPEN_CAMPAIGN (R10, R19): the three checks in order (tubes, a landmark table set with its last support at or below
L − 1 (R7), a curve for every frequency in use), then the next campaign number, phase ACTIVE, the completion
check armed and applied once. That a refusal by the command's own check carries an empty body is log 25's. -/
def Obligations.OpenCampaignOpens : Prop :=
  ∀ (rq : Requester) (s : State), s.takes .openCampaign rq = true →
    (s.map.landmarksValid = true ↔ ∃ l, s.map.landmarks = some l ∧
      ∀ p, l.getLast? = some p → p ≤ s.map.params.length - 1) ∧
    (s.map.tubes = [] → exec (.openCampaign rq) s = .next (s.answer .openCampaign .tubes [])) ∧
    (s.map.tubes ≠ [] → s.map.landmarksValid = false →
      exec (.openCampaign rq) s = .next (s.answer .openCampaign .landmarks [])) ∧
    (s.map.tubes ≠ [] → s.map.landmarksValid = true →
      (∃ f : Fin 4, (s.freqs.get f).threshold < 4096 ∧ (s.freqs.get f).curve = none) →
      exec (.openCampaign rq) s = .next (s.answer .openCampaign .curveMissing [])) ∧
    (s.map.tubes ≠ [] → s.map.landmarksValid = true →
      (∀ f : Fin 4, (s.freqs.get f).threshold < 4096 → (s.freqs.get f).curve ≠ none) →
      ∃ complete : Bool, complete = decide (s.map.census.plannedOpen = 0 ∧ 0 < s.map.census.planned) ∧
        exec (.openCampaign rq) s = .next (State.answer
          { s with
            map := { s.map with phase := .active, campaign := (s.map.campaign + 1) % 65536, armed := !complete }
            notices := if complete then s.notices.post .campaignComplete 0 else s.notices }
          .openCampaign .ok (byte2 ((s.map.campaign + 1) % 65536))))

/-- CLOSE_CAMPAIGN (R11, R173): refused while a tube holds a claim; otherwise IDLE, SEEKING and HALTED channels go OFF,
every seek is abandoned with the cursors kept, the seats are freed and their hold timers stopped, their entries return
to DISPUTED with an evaluation of their tubes, and the phase is CLOSED. No completion comes of it (R19): a returned
entry leaves its tube in no terminal state. The directory, the parameters, the landmarks, the watches and every other
tube and entry are as they were. -/
def Obligations.CloseCampaignCloses : Prop :=
  ∀ (rq : Requester) (s : State), s.takes .closeCampaign rq = true →
    ((∃ t ∈ s.map.tubes, t.claim ≠ none) →
      exec (.closeCampaign rq) s = .next (s.answer .closeCampaign .claimsActive [])) ∧
    ((∀ t ∈ s.map.tubes, t.claim = none) →
      ∃ t, exec (.closeCampaign rq) s = .next t ∧
        (∀ n : Fin 8, t.chan n =
          if (s.chan n).state = .idle ∨ (s.chan n).state = .seeking ∨ (s.chan n).state = .halted then
            { s.chan n with state := .off, prior := none, interrupted := none }
          else s.chan n) ∧
        t.walker = { s.walker with waiting := Eight.fill false, seek := none } ∧
        (∀ k : Fin 4, (t.seats.get k).held = none ∧
          ((s.seats.get k).held ≠ none → (t.seats.get k).expiry = none)) ∧
        (∀ (k : Fin 4) (r : EntryRef) (e : Entry), (s.seats.get k).held = some r →
          s.store.entry r.number = some e →
          t.store.entry r.number = some { e with status := .disputed, holder := none, resolution := none } ∧
          s.watched t e.tube ∧
          ∀ u : Tube, s.tube e.tube = some u →
            (∀ (j : Fin 4) (x : EntryRef), j ≠ k → (s.seats.get j).held = some x → x.number ∉ u.entries ∧
              ∀ f, s.store.entry x.number = some f → f.tube ≠ e.tube) →
            t.tube e.tube = some (u.evaluated s.map.params.plugLimit t.store)) ∧
        (∀ n, (∀ (k : Fin 4) (r : EntryRef), (s.seats.get k).held = some r → r.number ≠ n) →
          t.store.slot n = s.store.slot n) ∧
        t.store.free = s.store.free ∧
        (∀ i, (∀ (k : Fin 4) (r : EntryRef) (e : Entry), (s.seats.get k).held = some r →
          s.store.entry r.number = some e → e.tube ≠ i) → t.tube i = s.tube i) ∧
        (s.censusTrue →
          (∀ (k : Fin 4) (r : EntryRef) (e : Entry) (u : Tube), (s.seats.get k).held = some r →
            s.store.entry r.number = some e → s.tube e.tube = some u → r.number ∈ u.entries) →
          t.map.armed = s.map.armed ∧
          ∀ m ∈ t.notices.pending, m.cls = .campaignComplete → m ∈ s.notices.pending) ∧
        t.port.response =
          some { command := 0x07#8, status := .ok, overrun := s.port.overrun, body := [] } ∧
        t = { s with
          map := { s.map with
            phase := .closed, tubes := t.map.tubes, census := t.map.census, armed := t.map.armed }
          store := t.store, seats := t.seats, chans := t.chans, walker := t.walker, notices := t.notices
          port := t.port })

/-- ROLLOVER_TUBE (R14): history depth takes the maximum, every entry of the tube is retired, and a tube not PLUGGED
becomes UNTESTED with its counts, marks and planned flag cleared; a PLUGGED tube stays PLUGGED; other tubes keep
their records. The candidates-changed signal is given where the tube enters UNTESTED from another state (R37). The
retired entries go to the tail of the free list in list order (R156, R157), and the pool warning is judged (R155). The
maximum of two depths takes an absent one as lower than 0 (R3). The completion check follows a change of its counts
(R19). -/
def Obligations.RolloverTube : Prop :=
  (∀ a b : Option Nat, (depthMax a b = none ↔ a = none ∧ b = none) ∧
    ∀ d, depthMax a b = some d ↔ (a = some d ∨ b = some d) ∧ ∀ x, a = some x ∨ b = some x → x ≤ d) ∧
  ∀ (s : State) (next : Nat) (t : Tube), s.held = false → s.port.mode = .executing →
    s.port.work = some (.newCampaign next) ∨ s.port.work = some (.prepareLayout next) → s.tube next = some t →
    ∃ u, exec .rolloverTube s = .next u ∧
      (t.state ≠ .plugged → u.tube next = some
        { t with history := depthMax t.history t.worstFinal, entries := [], worstFinal := none, state := .untested,
                 passes := 0, attempts := 0, primaryMark := false, secondaryMark := false, truncated := false,
                 planned := false }) ∧
      (t.state = .plugged → u.tube next = some
        { t with history := depthMax t.history t.worstFinal, entries := [], worstFinal := none }) ∧
      (∀ i, i ≠ next → u.tube i = s.tube i) ∧
      (∀ n ∈ t.entries, u.store.entry n = none) ∧ (∀ n, n ∉ t.entries → u.store.slot n = s.store.slot n) ∧
      (t.entries.Nodup → (∀ n ∈ t.entries, s.store.entry n ≠ none) →
        u.store.free.toList = s.store.free.toList ++ t.entries) ∧
      ((∃ n ∈ t.entries, s.store.entry n ≠ none) →
        u.store.warnArmed = decide (s.map.params.poolLevel < u.store.free.count)) ∧
      (s.store.warnArmed = true → u.store.warnArmed = false → u.notices.told .pool 0) ∧
      s.completes u ∧ (t.state ≠ .plugged → t.state ≠ .untested → ∀ n, s.signalledChannel u n) ∧
      (t.state = .plugged ∨ t.state = .untested → u.chans = s.chans ∧ u.walker = s.walker) ∧
      (t.state ≠ .plugged → t.state ≠ .untested → s.watched u next) ∧
      (s.port.work = some (.newCampaign next) → u.port.work = some (.newCampaign (next + 1))) ∧
      (s.port.work = some (.prepareLayout next) → u.port.work = some (.prepareLayout (next + 1))) ∧
      u = { s with
        map := { s.map with tubes := u.map.tubes, census := u.map.census, armed := u.map.armed }
        store := u.store, seats := u.seats, notices := u.notices, chans := u.chans
        walker := { s.walker with waiting := u.walker.waiting, seek := u.walker.seek }
        port := { s.port with work := u.port.work } }

/-- PLAN_REGION_TUBE (R16): at the next tube of the rectangle, SET sets the planned flag of a tube that is not PLUGGED
and not planned, with the candidates-changed signal (R37), CLEAR clears a set flag; each change is counted, any other
tube is passed over, and no other tube changes. The next tube, for a directory in its canonical form (log 18), stands at
the least cell, in row-major order and not before `next`, that lies in the rectangle and holds a tube. The completion
check follows a change of its counts (R19). -/
def Obligations.PlanRegionTube : Prop :=
  (∀ (s : State) (r : Rect) (a : PlanAction) (next changed cell i : Nat) (t : Tube), s.held = false →
    s.port.mode = .executing → s.port.work = some (.planRegion r a next changed) →
    s.map.nextInRegion r next = some (cell, i) → s.tube i = some t →
    ∃ u, exec .planRegionTube s = .next u ∧
      (a = .set → t.state ≠ .plugged → t.planned = false →
        u.tube i = some { t with planned := true } ∧ (∀ n, s.signalledChannel u n) ∧
        u.port.work = some (.planRegion r a (cell + 1) (changed + 1))) ∧
      (a = .clear → t.planned = true →
        u.tube i = some { t with planned := false } ∧ u.chans = s.chans ∧ u.walker = s.walker ∧
        u.port.work = some (.planRegion r a (cell + 1) (changed + 1))) ∧
      ((a = .set ∧ (t.state = .plugged ∨ t.planned = true)) ∨ (a = .clear ∧ t.planned = false) →
        u = { s with port := { s.port with work := some (.planRegion r a (cell + 1) changed) } }) ∧
      (∀ j, j ≠ i → u.tube j = s.tube j) ∧ s.completes u ∧
      u = { s with
        map := { s.map with tubes := u.map.tubes, census := u.map.census, armed := u.map.armed }
        notices := u.notices, chans := u.chans
        walker := { s.walker with waiting := u.walker.waiting, seek := u.walker.seek }
        port := { s.port with work := u.port.work } }) ∧
  ∀ (m : TubeMap) (r : Rect) (next : Nat), sparseWf none m.directory = true → r.rowHi ≤ 255 →
    (m.nextInRegion r next = none ↔
      ∀ c, next ≤ c → r.holds { row := c / 256, col := c % 256 } = true →
        m.at { row := c / 256, col := c % 256 } = none) ∧
    ∀ cell i, m.nextInRegion r next = some (cell, i) ↔
      next ≤ cell ∧ r.holds { row := cell / 256, col := cell % 256 } = true ∧
      m.at { row := cell / 256, col := cell % 256 } = some i ∧
      ∀ c, next ≤ c → c < cell → r.holds { row := c / 256, col := c % 256 } = true →
        m.at { row := c / 256, col := c % 256 } = none

/-! ## Channels -/

/-- CONFIGURE_CHANNEL (R51, R52): the configuration is replaced and answered; a claim, the calibration and the running
timer stand; a SEEKING channel's seek is abandoned (R80), and it waits again only where it seeks again; a change of
group 1, 2 or 3 (R52) sends the cursor to "before first" and clears the exhausted flag; a channel then IDLE seeks when
its level is above 0 and its flag clear. Other channels are not touched, and a seek that serves one of them goes on
(R81). A group whose keep flag is clear takes its defaults, and one whose flag is set the values carried, the window
clamped to 0–255. -/
def Obligations.ConfigureChannelApplies : Prop :=
  (∀ (rq : Requester) (s : State) (n : Fin 8) (f : ConfigFields), s.takes .configureChannel rq = true →
     (f.inRange = false →
       exec (.configureChannel rq n.val f) s = .next (s.answer .configureChannel .range [])) ∧
     (f.inRange = true →
       ∃ t, exec (.configureChannel rq n.val f) s = .next t ∧
         ∃ (same rests seeks : Bool), rests = decide ((s.chan n).state = .idle ∨ (s.chan n).state = .seeking) ∧
           seeks = (rests && decide (0 < f.config.priority) && !(same && (s.chan n).exhausted)) ∧
           t.chan n = { s.chan n with
             config := f.config
             state := if seeks then .seeking else if rests then .idle else (s.chan n).state
             exhausted := same && (s.chan n).exhausted } ∧
           t.walker.cursors.get n = (if same then s.walker.cursors.get n else none) ∧
           (same = true ↔ (s.chan n).config.window = f.config.window ∧
             (s.chan n).config.keepouts = f.config.keepouts ∧ (s.chan n).config.majorAxis = f.config.majorAxis ∧
             (s.chan n).config.startCorner = f.config.startCorner ∧
             (s.chan n).config.serpentine = f.config.serpentine ∧ (s.chan n).config.mix = f.config.mix ∧
             (s.chan n).config.pattern = f.config.pattern ∧ (s.chan n).config.zones = f.config.zones ∧
             (s.chan n).config.states = f.config.states) ∧
           (t.walker.waiting.get n = true ↔
             seeks = true ∨ ((s.chan n).state ≠ .seeking ∧ s.walker.waiting.get n = true)) ∧
           ((s.chan n).state ≠ .seeking → t.walker.seek = s.walker.seek) ∧
           ((s.chan n).state = .seeking → ∀ k, t.walker.seek = some k → k.chan ≠ n) ∧
           (∀ m, m ≠ n → s.sameChannel t m ∧ t.walker.cursors.get m = s.walker.cursors.get m) ∧
           t.port.response = some
             { command := 0x0B#8, status := .ok, overrun := s.port.overrun, body := configBody f.config } ∧
           t = { s with
             chans := t.chans
             walker := { s.walker with
               cursors := t.walker.cursors, waiting := t.walker.waiting, seek := t.walker.seek }
             port := t.port })) ∧
  (∀ f : ConfigFields, f.inRange = true ↔
    f.face ≤ 1 ∧ (f.keep2 = true → f.majorAxis ≤ 1 ∧ f.startCorner ≤ 3) ∧ (f.keep4 = true → f.priority ≤ 7) ∧
    (f.keep5 = true → f.stallTick ≤ 3 ∧ f.stallReload ≤ 255)) ∧
  ∀ f : ConfigFields, f.inRange = true →
    (f.keep1 = false → f.config.window = { rowLo := 0, rowHi := 255, colLo := 0, colHi := 255 } ∧
      f.config.keepouts = Eight.fill false) ∧
    (f.keep1 = true → f.config.window = f.window.clamped ∧ f.config.keepouts = f.keepouts) ∧
    (f.keep2 = false → f.config.majorAxis = .row ∧ f.config.startCorner = .topLeft ∧
      f.config.serpentine = true) ∧
    (f.keep2 = true → some f.config.majorAxis = axisOf f.majorAxis ∧
      some f.config.startCorner = cornerOf f.startCorner ∧ f.config.serpentine = f.serpentine) ∧
    (f.keep3 = false → f.config.mix = 0xF0#8 ∧ (∀ i, i < 64 → f.config.pattern.getLsbD i = true) ∧
      (∀ i, i < 16 → f.config.zones.getLsbD i = true) ∧
      f.config.states = { untested := true, retest := true }) ∧
    (f.keep3 = true → f.config.mix = f.mix ∧ f.config.pattern = f.pattern ∧ f.config.zones = f.zones ∧
      f.config.states = f.states) ∧
    (f.keep4 = false → f.config.priority = 1) ∧ (f.keep4 = true → f.config.priority = f.priority) ∧
    (f.keep5 = false → f.config.stallTick = .one ∧ f.config.stallReload = 60 ∧
      f.config.reloads =
        { enter := true, progress := true, indication := true, farEnd := true, heartbeat := true }) ∧
    (f.keep5 = true → some f.config.stallTick = stallTickOf f.stallTick ∧
      f.config.stallReload = f.stallReload ∧ f.config.reloads = f.reloads) ∧
    some f.config.face = faceOf f.face ∧
    (f.config.window.rowLo ≤ 255 ∧ f.config.window.rowHi ≤ 255 ∧ f.config.window.colLo ≤ 255 ∧
      f.config.window.colHi ≤ 255) ∧
    ∀ i : Int, (i < 0 → clamp i = 0) ∧ (255 < i → clamp i = 255) ∧ (0 ≤ i → i ≤ 255 → (clamp i : Int) = i)


/-- SET_CHANNEL_CAL, SET_KEEPOUT and SET_CLEARANCE (R54, R68, R49): a channel with a claim refuses its calibration with
CHANNEL_BUSY; otherwise present values replace; a region is replaced whole; the clearance is replaced. The form in which
the calibration and the regions are answered is log 8's, and that an undefined region holds no bounds and is answered as
00h is log 24's. That a refusal by the command's own check carries an empty body is log 25's. -/
def Obligations.ProbingSettings : Prop :=
  ∀ (rq : Requester) (s : State),
    (∀ (n : Fin 8) (f : CalFields), s.takes .setChannelCal rq = true → f.inRange = true →
      ((s.chan n).claim ≠ none →
        exec (.setChannelCal rq n.val f) s = .next (s.answer .setChannelCal .channelBusy [])) ∧
      ((s.chan n).claim = none → ∃ cal : Calibration,
        exec (.setChannelCal rq n.val f) s =
          .next (State.answer { s with chans := s.chans.set n { s.chan n with cal } } .setChannelCal .ok
            (calBody cal)) ∧
        cal.scale = f.scale.getD (s.chan n).cal.scale ∧
        ∀ k : Fin 4, cal.rotation.get k = (f.rotation.get k).getD ((s.chan n).cal.rotation.get k) ∧
          cal.factor.get k = (f.factor.get k).getD ((s.chan n).cal.factor.get k))) ∧
    (∀ (k : Fin 8) (defined : Bool) (b : Bounds), s.takes .setKeepout rq = true → ∃ r : Eight (Option Rect),
      exec (.setKeepout rq k.val defined b) s =
        .next (State.answer { s with walker := { s.walker with keepouts := r } } .setKeepout .ok
          (r.toList.flatMap regionBody)) ∧
      r.get k = (if defined then some b.clamped else none) ∧ ∀ m, m ≠ k → r.get m = s.walker.keepouts.get m) ∧
    ∀ v : Nat, v ≤ 7 → s.takes .setClearance rq = true →
      exec (.setClearance rq v) s =
        .next (State.answer { s with walker := { s.walker with clearance := v } } .setClearance .ok [])

/-- START_CHANNEL (R55): refused with INTERLOCK while the latch is set, then with STATE outside OFF; otherwise the
channel is IDLE with its exhausted flag clear, and seeks at once when its level is above 0. -/
def Obligations.StartChannelStarts : Prop :=
  ∀ (rq : Requester) (s : State) (n : Fin 8), s.takes .startChannel rq = true →
    (s.interlock.latch = true →
      exec (.startChannel rq n.val) s = .next (s.answer .startChannel .interlock [])) ∧
    (s.interlock.latch = false → (s.chan n).state ≠ .off →
      exec (.startChannel rq n.val) s = .next (s.answer .startChannel .state [])) ∧
    (s.interlock.latch = false → (s.chan n).state = .off →
      (0 < (s.chan n).config.priority →
        exec (.startChannel rq n.val) s = .next (State.answer
          { s with
            chans := s.chans.set n { s.chan n with state := .seeking, exhausted := false }
            walker := { s.walker with waiting := s.walker.waiting.set n true } } .startChannel .ok [])) ∧
      ((s.chan n).config.priority = 0 →
        exec (.startChannel rq n.val) s = .next (State.answer
          { s with chans := s.chans.set n { s.chan n with state := .idle, exhausted := false } }
          .startChannel .ok [])))

/-- STOP_CHANNEL (R56), by channel state; the exhausted flag, the cursor, the configuration and the calibration are
kept, and so is every other channel. An INTERLOCK_CLEAR leaves a channel that is OFF as it is. -/
def Obligations.StopChannelStops : Prop :=
  (∀ (rq : Requester) (p : Phase), Command.permits .stopChannel rq p = true ↔ rq.role = 1 ∨ rq.role = 2) ∧
  (∀ (rq : Requester) (s t : State) (n : Fin 8), (s.chan n).state = .off → exec (.interlockClear rq) s = .next t →
     t.chan n = s.chan n) ∧
  ∀ (rq : Requester) (s : State) (n : Fin 8), s.takes .stopChannel rq = true →
    ((s.chan n).state = .off → exec (.stopChannel rq n.val) s = .next (s.answer .stopChannel .ok [])) ∧
    ((s.chan n).state = .idle ∨ ((s.chan n).state = .halted ∧ (s.chan n).claim = none) →
      exec (.stopChannel rq n.val) s = .next (State.answer
        { s with chans := s.chans.set n { s.chan n with state := .off, prior := none, interrupted := none } }
        .stopChannel .ok [])) ∧
    ((s.chan n).state = .seeking →
      ∃ k : Option Seek,
        exec (.stopChannel rq n.val) s = .next (State.answer
          { s with
            chans := s.chans.set n { s.chan n with state := .off, prior := none, interrupted := none }
            walker := { s.walker with waiting := s.walker.waiting.set n false, seek := k } } .stopChannel .ok []) ∧
        ((∃ j, s.walker.seek = some j ∧ j.chan = n) → k = none) ∧
        ((∀ j, s.walker.seek = some j → j.chan ≠ n) → k = s.walker.seek)) ∧
    ((s.chan n).state = .assigned ∨ (s.chan n).state = .probing ∨ (s.chan n).state = .stalled ∨
        ((s.chan n).state = .halted ∧ (s.chan n).claim ≠ none) →
      exec (.stopChannel rq n.val) s = .next (s.answer .stopChannel .claimHeld []))

/-- ABANDON (R59, R25): without a claim NO_CLAIM. With one, CANCEL is sent with its echo, the tube returns to its
prior state or to RETEST, and the channel is IDLE, seeking at once when its level is above 0, or HALTED with prior
state IDLE; no other tube changes, the candidates-changed signal reaches the other channels (R37), and the watch slots
on the tube post (R40). The completion check follows a change of its counts (R19). A measurement that waits at the
channel is discarded with the claim (R139; log 13), overtravel marks on their way are dropped and data gap marks stay
(log 5). -/
def Obligations.AbandonReleases : Prop :=
  ∀ (rq : Requester) (s : State) (n : Fin 8), s.takes .abandon rq = true →
    ((s.chan n).claim = none → exec (.abandon rq n.val) s = .next (s.answer .abandon .noClaim [])) ∧
    ∀ (k : Claim) (u : Tube), (s.chan n).claim = some k → s.tube k.tube = some u →
      u.state = .claimed ∨ u.state = .inTest → k.prior.claimable = true →
      ∃ t, exec (.abandon rq n.val) s = .next t ∧
        t.txs = s.txs.set n ((s.txs.get n).enqueue { kind := .cancel, echo := k.echo }) ∧
        t.tube k.tube = some { u with claim := none, state := if u.state = .claimed then k.prior else .retest } ∧
        (∀ j, j ≠ k.tube → t.tube j = s.tube j) ∧ s.watched t k.tube ∧ s.completes t ∧
        (t.chan n).claim = none ∧ (t.chan n).lastCount = none ∧ (t.chan n).timer.mode = .stopped ∧
        (t.chan n).timer.count = 0 ∧ (t.chan n).exhausted = false ∧ (t.chan n).config = (s.chan n).config ∧
        (t.chan n).cal = (s.chan n).cal ∧ (t.chan n).filing = none ∧ (t.chan n).overtravelMarks = 0 ∧
        (t.chan n).gapMarks = (s.chan n).gapMarks ∧
        ((s.chan n).state = .assigned ∨ (s.chan n).state = .probing ∨ (s.chan n).state = .stalled →
          (t.chan n).prior = none ∧ (t.chan n).interrupted = none ∧
          (t.chan n).state = (if 0 < (s.chan n).config.priority then .seeking else .idle) ∧
          (0 < (s.chan n).config.priority → t.walker.waiting.get n = true)) ∧
        ((s.chan n).state = .halted → (t.chan n).state = .halted ∧ (t.chan n).prior = some .idle ∧
          (t.chan n).interrupted = none) ∧
        (∀ m, m ≠ n → s.signalledChannel t m) ∧
        t.port.response = some { command := 0x11#8, status := .ok, overrun := s.port.overrun, body := [] } ∧
        t = { s with
          map := { s.map with tubes := t.map.tubes, census := t.map.census, armed := t.map.armed }
          notices := t.notices, chans := t.chans
          walker := { s.walker with waiting := t.walker.waiting, seek := t.walker.seek }
          txs := t.txs, port := t.port }

/-- RESUME (R60): STATE outside STALLED; a STALLED channel returns to its prior state, its stall timer is loaded with
the settings in force (R113), and RELEASE is sent with the claim's echo. -/
def Obligations.ResumeRevives : Prop :=
  ∀ (rq : Requester) (s : State) (n : Fin 8), s.takes .resume rq = true →
    ((s.chan n).state ≠ .stalled → exec (.resume rq n.val) s = .next (s.answer .resume .state [])) ∧
    ∀ (k : Claim) (p : ChanState), (s.chan n).state = .stalled → (s.chan n).claim = some k →
      (s.chan n).prior = some p →
      ∃ timer : StallTimer,
        exec (.resume rq n.val) s = .next (State.answer
          { s with
            chans := s.chans.set n { s.chan n with state := p, prior := none, interrupted := none, timer }
            txs := s.txs.set n ((s.txs.get n).enqueue { kind := .release, echo := k.echo }) } .resume .ok []) ∧
        ((s.chan n).config.stallReload = 0 → timer.mode = .stopped ∧ timer.count = 0) ∧
        (0 < (s.chan n).config.stallReload →
          timer = { mode := .running, count := (s.chan n).config.stallReload, tick := (s.chan n).config.stallTick,
                    nextTick := s.clock + (s.chan n).config.stallTick.millis })

/-- CHANNEL_RESET (R61): the seek is abandoned, a claim is released with CANCEL, the channel is OFF with its cursor
"before first", and its link is back in HUNT, empty, with its settings kept. A released tube gives the
candidates-changed signal to the other channels (R37), and its watch slots post (R40); the completion check follows a
change of its counts (R19). A report in hand stays in hand (R61; log 13). A measurement that waits at the channel is
discarded (R139), overtravel marks on their way are dropped and data gap marks stay (log 5). -/
def Obligations.ChannelResetClears : Prop :=
  ∀ (rq : Requester) (s : State) (n : Fin 8), s.takes .channelReset rq = true →
    ∃ t, exec (.channelReset rq n.val) s = .next t ∧
      (t.chan n).state = .off ∧ (t.chan n).prior = none ∧ (t.chan n).interrupted = none ∧
      (t.chan n).claim = none ∧ (t.chan n).timer.mode = .stopped ∧ (t.chan n).timer.count = 0 ∧
      (t.chan n).lastCount = none ∧ (t.chan n).exhausted = false ∧ (t.chan n).config = (s.chan n).config ∧
      (t.chan n).cal = (s.chan n).cal ∧ (t.chan n).filing = none ∧
      (t.chan n).overtravelMarks = 0 ∧ (t.chan n).gapMarks = (s.chan n).gapMarks ∧ t.walker.cursors = s.walker.cursors.set n none ∧
      t.walker.keepouts = s.walker.keepouts ∧ t.walker.clearance = s.walker.clearance ∧
      (∀ j, t.walker.seek = some j → j.chan ≠ n) ∧
      ((s.chan n).claim = none ∨ (s.chan n).state ≠ .idle → t.walker.waiting.get n = false) ∧
      ((s.chan n).claim = none → t.txs = s.txs ∧ t.map = s.map ∧ t.notices = s.notices ∧
        ∀ m, m ≠ n → s.sameChannel t m) ∧
      (∀ (k : Claim) (u : Tube), (s.chan n).claim = some k → s.tube k.tube = some u →
        t.txs = s.txs.set n ((s.txs.get n).enqueue { kind := .cancel, echo := k.echo }) ∧
        (u.state = .claimed → t.tube k.tube = some { u with claim := none, state := k.prior }) ∧
        (u.state = .inTest → t.tube k.tube = some { u with claim := none, state := .retest }) ∧
        (u.state = .inTest ∨ (u.state = .claimed ∧ k.prior.claimable = true) →
          s.watched t k.tube ∧ ∀ m, m ≠ n → s.signalledChannel t m) ∧
        ∀ j, j ≠ k.tube → t.tube j = s.tube j) ∧
      s.completes t ∧
      t.port.response = some { command := 0x13#8, status := .ok, overrun := s.port.overrun, body := [] } ∧
      t.links = s.links.set n
        { rx := .hunt, header := none, gathered := [], queue := [], flags := LinkFlags.none, errors := 0,
          lastKind := none, lastSource := none, policy := (s.link n).policy, strict := (s.link n).strict,
          enables := (s.link n).enables } ∧
      t = { s with
        map := { s.map with tubes := t.map.tubes, census := t.map.census, armed := t.map.armed }
        notices := t.notices, chans := t.chans, walker := t.walker, txs := t.txs, links := t.links
        port := t.port }

/-- The checks of ASSIGN_TUBE in order (R57): NO_TUBE, CHANNEL_BUSY, OUTSIDE_WINDOW; a refusal there changes nothing but
the port. The claim rule (R47) has no reason to refuse exactly when its conditions hold, and otherwise gives the reason
of the first that fails, in the order PHASE, TUBE_BUSY or STATE, CHANNEL_BUSY, INTERLOCK, CLEARANCE. A tube name names
the tube of its position or of its index (R1); the distance is the greater of the two coordinate distances (introduction
5.3). That a refusal by the command's own check carries an empty body is log 25's. -/
def Obligations.AssignTubeChecks : Prop :=
  (∀ (s : State) (i : Nat) (t : Tube),
     (∀ p, s.findNamed (.position p) = some (i, t) ↔ s.map.at p = some i ∧ s.tube i = some t) ∧
     (∀ j, s.findNamed (.index j) = some (i, t) ↔ j = i ∧ s.tube i = some t) ∧
     ∀ k, s.findNamed (.other k) = none) ∧
  (∀ p q : Pos,
     (∀ d, p.distance q ≤ d ↔
       p.row ≤ q.row + d ∧ q.row ≤ p.row + d ∧ p.col ≤ q.col + d ∧ q.col ≤ p.col + d) ∧
     ∀ r : Rect, r.holds p = true ↔ r.rowLo ≤ p.row ∧ p.row ≤ r.rowHi ∧ r.colLo ≤ p.col ∧ p.col ≤ r.colHi) ∧
  (∀ (rq : Requester) (s : State) (n : Fin 8) (name : TubeName), s.takes .assignTube rq = true →
     name.inRange = true →
     (s.findNamed name = none →
       exec (.assignTube rq n.val name) s = .next (s.answer .assignTube .noTube [])) ∧
     ∀ (i : Nat) (t : Tube), s.findNamed name = some (i, t) →
       ((s.chan n).state ≠ .idle → (s.chan n).state ≠ .seeking →
         exec (.assignTube rq n.val name) s = .next (s.answer .assignTube .channelBusy [])) ∧
       ((s.chan n).state = .idle ∨ (s.chan n).state = .seeking →
         (s.chan n).config.window.holds t.pos = false ∨
           (∃ (r : Fin 8) (x : Rect), (s.chan n).config.keepouts.get r = true ∧
             s.walker.keepouts.get r = some x ∧ x.holds t.pos = true) →
         exec (.assignTube rq n.val name) s = .next (s.answer .assignTube .outsideWindow []))) ∧
  (∀ (s : State) (n : Fin 8) (t : Tube), s.claimReason n t = none ↔
    s.map.phase = .active ∧ (t.state = .untested ∨ t.state = .retest) ∧ t.claim = none ∧
    (s.chan n).claim = none ∧ s.interlock.latch = false ∧
    ∀ (m : Fin 8) (k : Claim), (s.chan m).claim = some k → k.face = (s.chan n).config.face →
      s.walker.clearance < k.pos.distance t.pos) ∧
  ∀ (s : State) (n : Fin 8) (t : Tube),
    (s.map.phase ≠ .active → s.claimReason n t = some .phase) ∧
    (s.map.phase = .active →
      (t.state = .claimed ∨ t.state = .inTest → s.claimReason n t = some .tubeBusy) ∧
      (t.state ≠ .claimed → t.state ≠ .inTest → t.state ≠ .untested → t.state ≠ .retest →
        s.claimReason n t = some .state) ∧
      (t.state = .untested ∨ t.state = .retest → t.claim = none →
        ((s.chan n).claim ≠ none → s.claimReason n t = some .channelBusy) ∧
        ((s.chan n).claim = none →
          (s.interlock.latch = true → s.claimReason n t = some .interlock) ∧
          (s.interlock.latch = false →
            (∃ (m : Fin 8) (k : Claim), (s.chan m).claim = some k ∧ k.face = (s.chan n).config.face ∧
              k.pos.distance t.pos ≤ s.walker.clearance) →
            s.claimReason n t = some .clearance))))


/-- ASSIGN_TUBE granted or refused by the claim rule (R58, R23, R46): a grant makes tube and channel hold the claim in
one step, loads the timer (R113: with a reload value of 0 it is stopped) and sends ASSIGN, and the completion check
follows a change of its counts (R19); a refusal carries the reason of R47 and leaves the tube map as it was. A seek of
the channel is abandoned, waiting or served; a refused channel is IDLE, or SEEKING and waiting again where its level is
above 0 and its exhausted flag clear (R43). That a refusal by the command's own check carries an empty body is log 25's.
-/
def Obligations.AssignTubeClaims : Prop :=
  ∀ (rq : Requester) (s : State) (n : Fin 8) (name : TubeName) (i : Nat) (u : Tube),
    s.takes .assignTube rq = true → name.inRange = true → s.findNamed name = some (i, u) →
    (s.chan n).state = .idle ∨ (s.chan n).state = .seeking → (s.chan n).config.window.holds u.pos = true →
    (∀ (r : Fin 8) (x : Rect), (s.chan n).config.keepouts.get r = true → s.walker.keepouts.get r = some x →
      x.holds u.pos = false) →
    (s.claimReason n u = none → ∃ (t : State) (k : Claim) (timer : StallTimer),
      exec (.assignTube rq n.val name) s = .next t ∧
      k = { tube := i, pos := u.pos, face := (s.chan n).config.face, pass := min (u.passes + 1) 15,
            prior := u.state, farEnd := false, dataGap := false } ∧
      t.tube i = some { u with state := .claimed, claim := some n } ∧ (∀ j, j ≠ i → t.tube j = s.tube j) ∧
      t.chan n = { s.chan n with state := .assigned, claim := some k, lastCount := none, timer } ∧
      timer = (s.chan n).timer.load (s.chan n).config s.clock ∧
      ((s.chan n).config.stallReload = 0 → timer.mode = .stopped ∧ timer.count = 0) ∧
      (0 < (s.chan n).config.stallReload →
        timer = { mode := .running, count := (s.chan n).config.stallReload, tick := (s.chan n).config.stallTick,
                  nextTick := s.clock + (s.chan n).config.stallTick.millis }) ∧
      (∀ m, m ≠ n → s.sameChannel t m) ∧ s.watched t i ∧ s.completes t ∧
      t.txs = s.txs.set n ((s.txs.get n).enqueue { kind := .assign, echo := k.echo }) ∧
      t.walker.cursors = s.walker.cursors ∧ t.walker.waiting.get n = false ∧
      (∀ j, t.walker.seek = some j → j.chan ≠ n) ∧
      t.port.response = some { command := 0x14#8, status := .ok, overrun := s.port.overrun,
                               body := byte2 i ++ byte1 (min (u.passes + 1) 15) } ∧
      t = { s with
        map := { s.map with tubes := t.map.tubes, census := t.map.census, armed := t.map.armed }
        notices := t.notices, chans := t.chans, txs := t.txs
        walker := { s.walker with waiting := t.walker.waiting, seek := t.walker.seek }
        port := t.port }) ∧
    (∀ reason : Status, s.claimReason n u = some reason →
      ∃ (t : State) (seeks : Bool), exec (.assignTube rq n.val name) s = .next t ∧
        seeks = decide (0 < (s.chan n).config.priority ∧ (s.chan n).exhausted = false) ∧
        t.chan n = { s.chan n with state := if seeks then .seeking else .idle } ∧
        t.walker.waiting.get n = seeks ∧ (∀ j, t.walker.seek = some j → j.chan ≠ n) ∧
        (∀ m, m ≠ n → s.sameChannel t m) ∧
        t.port.response = some { command := 0x14#8, status := reason, overrun := s.port.overrun, body := [] } ∧
        t = { s with
          chans := t.chans
          walker := { s.walker with waiting := t.walker.waiting, seek := t.walker.seek }
          port := t.port })

/-! ## Links and the interlock -/

/-- SET_LINK replaces the three settings and keeps the receive state and the frame in progress (R96, R92). -/
def Obligations.SetLinkSets : Prop :=
  ∀ (rq : Requester) (s : State) (n : Fin 8) (policy : Nat) (strict : Bool) (enables : LinkFlags),
    s.takes .setLink rq = true →
    (1 < policy → exec (.setLink rq n.val policy strict enables) s = .next (s.answer .setLink .range [])) ∧
    ∀ p : Policy, policy = p.code →
      exec (.setLink rq n.val policy strict enables) s = .next (State.answer
        { s with links := s.links.set n { s.link n with policy := p, strict, enables } } .setLink .ok
        (byte1 policy ++ byte1 strict.toNat ++ byte1 (flagsNat enables.toList)))

/-- RESTART_LINK (R97): the queue is emptied; FAULT is left for HUNT, any other receive state and the frame in progress
kept; the flags, the count, the last fields and the settings keep their values; no error event, no data gap mark. -/
def Obligations.RestartLinkEmpties : Prop :=
  (∀ (rq : Requester) (p : Phase), Command.permits .restartLink rq p = true ↔ rq.role = 1 ∨ rq.role = 2) ∧
  ∀ (rq : Requester) (s : State), s.takes .restartLink rq = true →
    (∀ n, 7 < n → exec (.restartLink rq n) s = .next (s.answer .restartLink .range [])) ∧
    ∀ n : Fin 8,
      ((s.link n).rx = .fault →
        exec (.restartLink rq n.val) s = .next (State.answer
          { s with links := s.links.set n { s.link n with rx := .hunt, queue := [] } } .restartLink .ok
          (byte1 RxState.hunt.code ++ byte1 (s.link n).queue.length))) ∧
      ((s.link n).rx ≠ .fault →
        exec (.restartLink rq n.val) s = .next (State.answer
          { s with links := s.links.set n { s.link n with queue := [] } } .restartLink .ok
          (byte1 (s.link n).rx.code ++ byte1 (s.link n).queue.length)))

/-- INTERLOCK_CLEAR (R122): LINE_ACTIVE while the debounced level is low, STATE while the latch is clear; otherwise the
latch is cleared and every HALTED channel returns to its prior state, with RELEASE and a loaded timer for ASSIGNED and
PROBING alone; one that returns to IDLE and seeks waits for the walker (R43), and no other waiting mark changes. That a
refusal by the command's own check carries an empty body is log 25's. -/
def Obligations.InterlockClearReturns : Prop :=
  ∀ (rq : Requester) (s : State), s.takes .interlockClear rq = true →
    (s.interlock.low = true → exec (.interlockClear rq) s = .next (s.answer .interlockClear .lineActive [])) ∧
    (s.interlock.low = false → s.interlock.latch = false →
      exec (.interlockClear rq) s = .next (s.answer .interlockClear .state [])) ∧
    (s.interlock.low = false → s.interlock.latch = true →
      ∃ t, exec (.interlockClear rq) s = .next t ∧ t.interlock = { s.interlock with latch := false } ∧
        (∀ n : Fin 8,
          ((s.chan n).state ≠ .halted → t.chan n = s.chan n ∧ t.txs.get n = s.txs.get n) ∧
          ((s.chan n).state ≠ .halted ∨ (s.chan n).prior = some .assigned ∨ (s.chan n).prior = some .probing ∨
              (s.chan n).prior = some .stalled → t.walker.waiting.get n = s.walker.waiting.get n) ∧
          ((s.chan n).state = .halted →
            (∀ (p : ChanState) (k : Claim), p = .assigned ∨ p = .probing → (s.chan n).prior = some p →
              (s.chan n).claim = some k →
              t.chan n = { s.chan n with
                state := p, prior := none, interrupted := none
                timer := (s.chan n).timer.load (s.chan n).config s.clock } ∧
              t.txs.get n = (s.txs.get n).enqueue { kind := .release, echo := k.echo }) ∧
            ((s.chan n).prior = some .stalled →
              t.chan n = { s.chan n with state := .stalled, prior := (s.chan n).interrupted, interrupted := none } ∧
              t.txs.get n = s.txs.get n) ∧
            ((s.chan n).prior = some .idle →
              t.chan n = { s.chan n with
                state := if 0 < (s.chan n).config.priority ∧ (s.chan n).exhausted = false then .seeking else .idle
                prior := none, interrupted := none } ∧
              (t.walker.waiting.get n = true ↔ s.walker.waiting.get n = true ∨
                (0 < (s.chan n).config.priority ∧ (s.chan n).exhausted = false)) ∧
              t.txs.get n = s.txs.get n))) ∧
        t.port.response = some { command := 0x17#8, status := .ok, overrun := s.port.overrun,
                                 body := byte1 (s.chans.toList.filter (fun c => c.state = .halted)).length } ∧
        t = { s with
          interlock := t.interlock, chans := t.chans, txs := t.txs
          walker := { s.walker with waiting := t.walker.waiting }, port := t.port })

/-- A debounce sample (R118): one equal to the debounced level sets the change count to 0, an opposite one raises it,
and the sixteenth opposite one in a row makes the level change: WBHOLD_RISE leaves the latch as it stands. The
assertion (R119), in one step: latch set, every channel that is not OFF halted with the state it was in, every seek
abandoned with the cursors kept, HOLD sent by the channels in ASSIGNED and PROBING alone, INTERLOCK posted. -/
def Obligations.InterlockSamples : Prop :=
  (∀ (s : State) (low : Bool), s.held = false →
     (low = s.interlock.low →
       exec (.wbholdSample low) s = .next { s with interlock := { s.interlock with changeCount := 0 } }) ∧
     (low ≠ s.interlock.low → s.interlock.changeCount < 15 →
       exec (.wbholdSample low) s =
         .next { s with interlock := { s.interlock with changeCount := s.interlock.changeCount + 1 } }) ∧
     (s.interlock.low = true → s.interlock.changeCount = 15 →
       exec .wbholdRise s = .next { s with interlock := { s.interlock with low := false, changeCount := 0 } } ∧
       exec (.wbholdSample false) s = exec .wbholdRise s) ∧
     (s.interlock.low = false → s.interlock.changeCount = 15 →
       exec (.wbholdSample true) s = exec .interlockAssertion s)) ∧
  ∀ s : State, s.held = false → s.interlock.low = false → s.interlock.changeCount = 15 →
    ∃ t, exec .interlockAssertion s = .next t ∧
      t.interlock = { low := true, changeCount := 0, latch := true } ∧
      t.walker = { s.walker with waiting := Eight.fill false, seek := none } ∧
      t.notices = s.notices.post .interlock 0 ∧
      (∀ n : Fin 8,
        ((s.chan n).state = .off ∨ (s.chan n).state = .halted → t.chan n = s.chan n ∧ t.txs.get n = s.txs.get n) ∧
        ((s.chan n).state = .idle ∨ (s.chan n).state = .seeking →
          t.chan n = { s.chan n with state := .halted, prior := some .idle } ∧ t.txs.get n = s.txs.get n) ∧
        ((s.chan n).state = .stalled →
          t.chan n = { s.chan n with state := .halted, prior := some .stalled, interrupted := (s.chan n).prior } ∧
          t.txs.get n = s.txs.get n) ∧
        ∀ k : Claim, (s.chan n).claim = some k → (s.chan n).state = .assigned ∨ (s.chan n).state = .probing →
          t.txs.get n = (s.txs.get n).enqueue { kind := .hold, echo := k.echo } ∧
          t.chan n = { s.chan n with state := .halted, prior := some (s.chan n).state, timer := (t.chan n).timer } ∧
          ((s.chan n).timer.mode = .running → (t.chan n).timer = { (s.chan n).timer with mode := .frozen }) ∧
          ((s.chan n).timer.mode ≠ .running → (t.chan n).timer = (s.chan n).timer)) ∧
      t = { s with interlock := t.interlock, chans := t.chans, txs := t.txs, walker := t.walker,
                   notices := t.notices }


/-! ## Commands on one tube -/

/-- PLUG_TUBE (R34, R35, R3): CLAIMED and IN_TEST refuse with TUBE_BUSY, PLUGGED with STATE. Otherwise history depth
takes the maximum, every entry is retired, and the record is that of a plugged tube; no other tube changes. The watch
slots on it post (R40); the retired entries go to the tail of the free list in list order (R156, R157), and the pool
warning is judged (R155). The completion check follows a change of its counts (R19). That a refusal by the command's own
check carries an empty body is log 25's. -/
def Obligations.PlugTubePlugs : Prop :=
  ∀ (rq : Requester) (s : State) (name : TubeName), s.takes .plugTube rq = true → name.inRange = true →
    (s.findNamed name = none → exec (.plugTube rq name) s = .next (s.answer .plugTube .noTube [])) ∧
    ∀ (i : Nat) (t : Tube), s.findNamed name = some (i, t) →
      (t.state = .claimed ∨ t.state = .inTest →
        exec (.plugTube rq name) s = .next (s.answer .plugTube .tubeBusy [])) ∧
      (t.state = .plugged → exec (.plugTube rq name) s = .next (s.answer .plugTube .state [])) ∧
      (t.state ≠ .claimed → t.state ≠ .inTest → t.state ≠ .plugged →
        ∃ u, exec (.plugTube rq name) s = .next u ∧
          u.tube i = some
            { t with history := depthMax t.history t.worstFinal, entries := [], worstFinal := none, state := .plugged,
                     plugCampaign := some s.map.campaign, passes := 0, attempts := 0, primaryMark := false,
                     secondaryMark := false, truncated := false, planned := false } ∧
          (∀ j, j ≠ i → u.tube j = s.tube j) ∧ s.watched u i ∧ s.completes u ∧
          (∀ n ∈ t.entries, u.store.entry n = none) ∧ (∀ n, n ∉ t.entries → u.store.slot n = s.store.slot n) ∧
          (t.entries.Nodup → (∀ n ∈ t.entries, s.store.entry n ≠ none) →
            u.store.free.toList = s.store.free.toList ++ t.entries) ∧
          ((∃ n ∈ t.entries, s.store.entry n ≠ none) →
            u.store.warnArmed = decide (s.map.params.poolLevel < u.store.free.count)) ∧
          (s.store.warnArmed = true → u.store.warnArmed = false → u.notices.told .pool 0) ∧
          (∀ (n : Nat) (e : Entry) (k : Fin 4), n ∈ t.entries → s.store.entry n = some e → e.holder = some k →
            (u.seats.get k).held = none ∧ (u.seats.get k).expiry = none) ∧
          u.port.response = some
            { command := 0x18#8, status := .ok, overrun := s.port.overrun,
              body := byte1 t.entries.length ++ absentFF (depthMax t.history t.worstFinal) ++
                byte2 s.map.campaign } ∧
          u = { s with
            map := { s.map with tubes := u.map.tubes, census := u.map.census, armed := u.map.armed }
            store := u.store, seats := u.seats, notices := u.notices, port := u.port })

/-- UNBLOCK_TUBE (R33) and REQUEST_RETEST (R32): the checks in order; the tube becomes RETEST, its attempts 0 or its two
marks clear, the candidates-changed signal is given (R37), and the watch slots on it post (R40). A planned tube that so
leaves a terminal state has the completion flag armed again (R19). That a refusal by the command's own check carries an
empty body is log 25's. -/
def Obligations.UnblockAndRetest : Prop :=
  ∀ (rq : Requester) (s : State) (name : TubeName), name.inRange = true →
    (s.takes .unblockTube rq = true →
      (s.findNamed name = none → exec (.unblockTube rq name) s = .next (s.answer .unblockTube .noTube [])) ∧
      ∀ (i : Nat) (t : Tube), s.findNamed name = some (i, t) →
        (t.state ≠ .blocked → exec (.unblockTube rq name) s = .next (s.answer .unblockTube .state [])) ∧
        (t.state = .blocked → ∃ u, exec (.unblockTube rq name) s = .next u ∧
          u.tube i = some { t with state := .retest, attempts := 0 } ∧ s.signalsFrom u i ∧ s.watched u i ∧
          u.port.response = some { command := 0x19#8, status := .ok, overrun := s.port.overrun, body := [] })) ∧
    (s.takes .requestRetest rq = true →
      (s.findNamed name = none → exec (.requestRetest rq name) s = .next (s.answer .requestRetest .noTube [])) ∧
      ∀ (i : Nat) (t : Tube), s.findNamed name = some (i, t) →
        (t.state ≠ .tested → t.state ≠ .underReview → t.state ≠ .cleared →
          exec (.requestRetest rq name) s = .next (s.answer .requestRetest .state [])) ∧
        (t.state = .tested ∨ t.state = .underReview ∨ t.state = .cleared →
          ((∃ n ∈ t.entries, ∃ e, s.store.entry n = some e ∧ e.status = .resolving) →
            exec (.requestRetest rq name) s = .next (s.answer .requestRetest .held [])) ∧
          ((∀ n ∈ t.entries, ∀ e, s.store.entry n = some e → e.status ≠ .resolving) →
            ∃ u, exec (.requestRetest rq name) s = .next u ∧
              u.tube i = some { t with state := .retest, primaryMark := false, secondaryMark := false } ∧
              s.signalsFrom u i ∧ s.watched u i ∧ u.store = s.store ∧
              u.port.response =
                some { command := 0x1F#8, status := .ok, overrun := s.port.overrun, body := [8#8] })))

/-! ## Dual analysis -/

/-- The comparison of two calls (R165), under agreement tolerance `tol`. -/
def Obligations.CallsCompared : Prop :=
  ∀ (e : Entry) (tol : Nat),
    (∀ c : Call, c = .noneFound ∨ c = .geometry →
      e.compare tol c c =
        { e with status := .dismissed, outcome := none, reference := some e.measured.depth }) ∧
    (∀ a b : Nat, a ≤ b + tol → b ≤ a + tol →
      e.compare tol (.depth a) (.depth b) =
        { e with status := .final, outcome := some (.depth (max a b)), reference := none }) ∧
    e.compare tol .nonQuantifiable .nonQuantifiable =
      { e with status := .final, outcome := some .nonQuantifiable, reference := none } ∧
    (∀ a b : Nat, b + tol < a ∨ a + tol < b →
      e.compare tol (.depth a) (.depth b) = { e with status := .disputed, outcome := none, reference := none }) ∧
    ∀ p q : Call, p.code ≠ q.code →
      e.compare tol p q = { e with status := .disputed, outcome := none, reference := none }

/-- SUBMIT_CALL (R163, R164, R166): the checks; the call replaces that of the request's role; the entry becomes
ONE_CALL, or the two calls are compared; a change of status evaluates the tube and is watched (R40), and a change from
ONE_CALL to DISPUTED posts the DISPUTE notice. That a refusal by the command's own check carries an empty body is log
25's. -/
def Obligations.SubmitCallTakes : Prop :=
  ∀ (rq : Requester) (s : State) (ref : EntryRef) (code depth : Nat) (c : Call),
    s.takes .submitCall rq = true → ref.number < 16384 → callOf code depth = some c →
    (s.store.resolve ref = none →
      exec (.submitCall rq ref code depth) s = .next (s.answer .submitCall .noEntry [])) ∧
    ∀ (e : Entry) (t : Tube), s.store.resolve ref = some e → s.tube e.tube = some t →
      (t.state ≠ .tested → t.state ≠ .underReview →
        exec (.submitCall rq ref code depth) s = .next (s.answer .submitCall .state [])) ∧
      (t.state = .tested ∨ t.state = .underReview →
        e.status = .resolving ∨ e.status = .final ∨ e.status = .dismissed →
        exec (.submitCall rq ref code depth) s = .next (s.answer .submitCall .state [])) ∧
      (t.state = .tested ∨ t.state = .underReview →
        e.status = .new ∨ e.status = .oneCall ∨ e.status = .disputed →
        ∃ (u : State) (e1 e2 : Entry) (v : Tube), exec (.submitCall rq ref code depth) s = .next u ∧
          e1 = (if rq.role = 3 then { e with primary := some c } else { e with secondary := some c }) ∧
          (e1.primary = none ∨ e1.secondary = none → e2 = { e1 with status := .oneCall }) ∧
          (∀ p q, e1.primary = some p → e1.secondary = some q →
            e2 = e1.compare s.map.params.tolerance p q) ∧
          u.store = s.store.setEntry ref.number e2 ∧ u.seats = s.seats ∧ u.clock = s.clock ∧
          (e2.status = e.status → u = { s with store := u.store, port := u.port }) ∧
          (e2.status ≠ e.status → s.evaluates u e.tube ∧ s.watched u e.tube) ∧
          (e.status = .oneCall → e2.status = .disputed → u.notices.told .dispute e.tube) ∧
          u.tube e.tube = some v ∧
          u.port.response = some
            { command := 0x1A#8, status := .ok, overrun := s.port.overrun,
              body := byte1 e2.status.code ++ byte1 v.state.code })

/-- REVIEW_DONE (R174): the checks in order; the role's mark is set, an acknowledged truncation cleared by PRIMARY, and
the tube evaluated; a change of its state is watched (R40), and the completion check follows a change of its counts
(R19). That the answer gives each mark and the truncated flag a byte
of its own is log 8's. That a refusal by the command's own check carries an empty body is log 25's. -/
def Obligations.ReviewDoneMarks : Prop :=
  ∀ (rq : Requester) (s : State) (name : TubeName) (ack : Bool),
    s.takes .reviewDone rq = true → name.inRange = true →
    (s.findNamed name = none → exec (.reviewDone rq name ack) s = .next (s.answer .reviewDone .noTube [])) ∧
    ∀ (i : Nat) (t : Tube) (missing : Prop), s.findNamed name = some (i, t) →
      (missing ↔ ∃ n ∈ t.entries, ∃ e, s.store.entry n = some e ∧ e.status ≠ .final ∧ e.status ≠ .dismissed ∧
        (rq.role = 3 → e.primary = none) ∧ (rq.role = 4 → e.secondary = none)) →
      (t.state ≠ .tested → t.state ≠ .underReview →
        exec (.reviewDone rq name ack) s = .next (s.answer .reviewDone .state [])) ∧
      (t.state = .tested ∨ t.state = .underReview →
        (missing → exec (.reviewDone rq name ack) s = .next (s.answer .reviewDone .callsMissing [])) ∧
        (¬ missing → t.truncated = true → ack = false →
          exec (.reviewDone rq name ack) s = .next (s.answer .reviewDone .truncated [])) ∧
        (¬ missing → t.truncated = false ∨ ack = true →
          ∃ (u : State) (v : Tube), exec (.reviewDone rq name ack) s = .next u ∧ u.tube i = some v ∧
            v = Tube.evaluated
              { t with
                primaryMark := t.primaryMark || decide (rq.role = 3)
                secondaryMark := t.secondaryMark || decide (rq.role = 4)
                truncated := t.truncated && decide (rq.role = 4) } s.map.params.plugLimit s.store ∧
            (∀ j, j ≠ i → u.tube j = s.tube j) ∧ (v.state ≠ t.state → s.watched u i) ∧
            (s.censusTrue → s.completes u) ∧
            (v.state = .plugCalled → u.notices.told .plugCall i) ∧
            u.port.response = some
              { command := 0x1B#8, status := .ok, overrun := s.port.overrun,
                body := flag1 v.primaryMark ++ flag1 v.secondaryMark ++ flag1 v.truncated ++ byte1 v.state.code } ∧
            u = { s with
              map := { s.map with tubes := u.map.tubes, census := u.map.census, armed := u.map.armed }
              notices := u.notices, port := u.port }))

/-- TAKE_ENTRY (R168, R167): the checks in order; the entry is RESOLVING under the request's seat, the seat holds its
reference with a timer that expires the hold limit later, and the tube is evaluated, which leaves it UNDER_REVIEW. The
two bytes of the time left in the answer are log 8's. That a refusal by the command's own check carries an empty body is
log 25's. -/
def Obligations.TakeEntryHolds : Prop :=
  ∀ (rq : Requester) (s : State) (ref : EntryRef), s.takes .takeEntry rq = true → ref.number < 16384 →
    (s.store.resolve ref = none → exec (.takeEntry rq ref) s = .next (s.answer .takeEntry .noEntry [])) ∧
    ∀ (e : Entry) (t : Tube), s.store.resolve ref = some e → s.tube e.tube = some t →
      (e.status = .resolving → e.holder ≠ some rq.seat →
        exec (.takeEntry rq ref) s = .next (s.answer .takeEntry .held [])) ∧
      (e.status ≠ .resolving ∨ e.holder = some rq.seat → (s.seats.get rq.seat).held ≠ none →
        exec (.takeEntry rq ref) s = .next (s.answer .takeEntry .seatBusy [])) ∧
      (e.status ≠ .resolving ∨ e.holder = some rq.seat → (s.seats.get rq.seat).held = none →
        e.status ≠ .disputed ∨ t.state ≠ .underReview →
        exec (.takeEntry rq ref) s = .next (s.answer .takeEntry .state [])) ∧
      ((s.seats.get rq.seat).held = none → e.status = .disputed → t.state = .underReview →
        ∃ u, exec (.takeEntry rq ref) s = .next u ∧
          u.store = s.store.setEntry ref.number { e with status := .resolving, holder := some rq.seat } ∧
          u.seats = s.seats.set rq.seat
            { held := some ref, expiry := some (s.clock + s.map.params.holdLimit * 60000) } ∧
          u.clock = s.clock ∧ s.evaluates u e.tube ∧ s.watched u e.tube ∧
          (ref.number ∈ t.entries → ∃ v, u.tube e.tube = some v ∧ v.state = .underReview) ∧
          u.port.response = some
            { command := 0x1C#8, status := .ok, overrun := s.port.overrun,
              body := byte2 ref.number ++ byte1 ref.issue ++ byte2 (s.map.params.holdLimit * 60) })

/-- The ends of a hold (R169, R170, R171): RESOLVE_ENTRY settles the held entry by its call alone, RELEASE_ENTRY and the
expiry of the hold timer return it to DISPUTED; the seat is freed and the tube evaluated; the expiry alone posts
HOLD_EXPIRED. A seat that holds nothing answers NOT_HOLDER. That the row of an expiry stands at the time the timer is
due is log 3, and that it changes nothing while the timer is stopped is log 1. That a refusal by the command's own check
carries an empty body is log 25's. -/
def Obligations.HoldsEnd : Prop :=
  ∀ (rq : Requester) (s : State) (k : Fin 4),
    (∀ (code depth : Nat) (c : Call), s.takes .resolveEntry rq = true → rq.seat = k → callOf code depth = some c →
      ((s.seats.get k).held = none →
        exec (.resolveEntry rq code depth) s = .next (s.answer .resolveEntry .notHolder [])) ∧
      ∀ (ref : EntryRef) (e : Entry) (t : Tube), (s.seats.get k).held = some ref →
        s.store.entry ref.number = some e → s.tube e.tube = some t →
        ∃ (u : State) (e2 : Entry) (v : Tube), exec (.resolveEntry rq code depth) s = .next u ∧
          (c = .noneFound ∨ c = .geometry → e2 =
            { e with resolution := some c, holder := none, status := .dismissed, outcome := none,
                     reference := some e.measured.depth }) ∧
          (∀ d, c = .depth d → e2 =
            { e with resolution := some c, holder := none, status := .final, outcome := some (.depth d),
                     reference := none }) ∧
          (c = .nonQuantifiable → e2 =
            { e with resolution := some c, holder := none, status := .final, outcome := some .nonQuantifiable,
                     reference := none }) ∧
          u.store = s.store.setEntry ref.number e2 ∧ u.clock = s.clock ∧
          u.seats = s.seats.set k { held := none, expiry := none } ∧ s.evaluates u e.tube ∧
          s.watched u e.tube ∧
          (∀ m ∈ u.notices.pending, m.cls = .holdExpired → m ∈ s.notices.pending) ∧
          u.tube e.tube = some v ∧
          u.port.response = some
            { command := 0x1D#8, status := .ok, overrun := s.port.overrun,
              body := byte2 ref.number ++ byte1 ref.issue ++ byte1 e2.status.code ++ byte1 v.state.code }) ∧
    (s.takes .releaseEntry rq = true → rq.seat = k →
      ((s.seats.get k).held = none →
        exec (.releaseEntry rq) s = .next (s.answer .releaseEntry .notHolder [])) ∧
      ∀ (ref : EntryRef) (e : Entry), (s.seats.get k).held = some ref → s.store.entry ref.number = some e →
        ∃ u, exec (.releaseEntry rq) s = .next u ∧
          u.store = s.store.setEntry ref.number { e with status := .disputed, holder := none, resolution := none } ∧
          u.seats = s.seats.set k { held := none, expiry := none } ∧ u.clock = s.clock ∧ s.evaluates u e.tube ∧
          s.watched u e.tube ∧
          (∀ m ∈ u.notices.pending, m.cls = .holdExpired → m ∈ s.notices.pending) ∧
          u.port.response = some
            { command := 0x1E#8, status := .ok, overrun := s.port.overrun,
              body := byte2 ref.number ++ byte1 ref.issue }) ∧
    (s.held = false →
      ((s.seats.get k).expiry = none → exec (.holdTimerExpiry k) s = .next s) ∧
      ∀ (due : Nat) (ref : EntryRef) (e : Entry), (s.seats.get k).expiry = some due →
        (s.seats.get k).held = some ref → s.store.entry ref.number = some e →
        ∃ u, exec (.holdTimerExpiry k) s = .next u ∧
          u.store = s.store.setEntry ref.number { e with status := .disputed, holder := none, resolution := none } ∧
          u.seats = s.seats.set k { held := none, expiry := none } ∧ u.clock = max s.clock due ∧
          u.port = s.port ∧ s.evaluates u e.tube ∧ s.watched u e.tube ∧
          u.notices.told .holdExpired k.val)

/-- A tube's evaluation (R175, R176): the first of the three results that applies, and the worst final depth. The
completion check follows a change of its counts (R19). -/
def Obligations.EvaluationRule : Prop :=
  ∀ (t : Tube) (limit : Nat) (l : List Entry) (open' settled plug : Prop),
    (open' ↔ ∃ e ∈ l, e.status = .disputed ∨ e.status = .resolving) →
    (settled ↔ t.primaryMark = true ∧ t.secondaryMark = true ∧ t.truncated = false ∧
      ∀ e ∈ l, e.status = .final ∨ e.status = .dismissed) →
    (plug ↔ ∃ e ∈ l, e.status = .final ∧
      (e.outcome = some .nonQuantifiable ∨ ∃ d, e.outcome = some (.depth d) ∧ limit ≤ d)) →
    (open' → evaluationState t limit l = .underReview) ∧
    (¬ open' → settled → plug → evaluationState t limit l = .plugCalled) ∧
    (¬ open' → settled → ¬ plug → evaluationState t limit l = .cleared) ∧
    (¬ open' → ¬ settled → evaluationState t limit l = .tested) ∧
    (worstFinalDepth l = none ↔ ∀ e ∈ l, e.finalDepth = none) ∧
    (∀ d, worstFinalDepth l = some d ↔
      (∃ e ∈ l, e.finalDepth = some d) ∧ ∀ e ∈ l, ∀ x, e.finalDepth = some x → x ≤ d) ∧
    (∀ (e : Entry) (d : Nat), e.finalDepth = some d ↔ e.status = .final ∧ e.outcome = some (.depth d)) ∧
    ∀ (s : State) (i : Nat) (u : Tube), s.tube i = some u →
      s.evaluates (s.evaluate i) i ∧ (s.evaluate i).store = s.store ∧
      (u.state = .tested ∨ u.state = .underReview →
        (u.evaluated s.map.params.plugLimit s.store).state = .plugCalled →
        (s.evaluate i).notices.told .plugCall i)

/-! ## Queries and notices -/

/-- The queries (R17, R18, R62, R95, R144, R186): what each answers, and that it changes nothing but the port; READ_LINK
alone also clears its link's flags and count. READ_TUBE takes its record when the request is taken and answers it at its
completion (log 7). The records' lengths and the places of their fields are those of 11.4: READ_TUBE answers the tube's
record and then its entries in list order, READ_ENTRY the entry and then its tube's row, column and state. That a
refusal by the command's own check carries an empty body is log 25's. -/
def Obligations.QueriesAnswer : Prop :=
  ∀ (rq : Requester) (s : State),
    (∀ name : TubeName, s.takes .readTube rq = true → name.inRange = true →
      (s.findNamed name = none → exec (.readTube rq name) s =
        .next { s with port := { s.port with
          mode := .executing, received := [], miso := [0#8], work := some (.readTube .noTube []) } }) ∧
      ∀ (i : Nat) (t : Tube), s.findNamed name = some (i, t) → exec (.readTube rq name) s =
        .next { s with port := { s.port with
          mode := .executing, received := [], miso := [0#8]
          work := some (.readTube .ok (readTubeBody s.store i t)) } }) ∧
    (∀ (status : Status) (body : List Byte), s.held = false → s.port.mode = .executing →
      s.port.work = some (.readTube status body) →
      exec .commandComplete s = .next (s.complete .readTube status body)) ∧
    (∀ (x : BitVec 10) (cell : Nat), s.held = false → s.port.mode = .executing →
      s.port.work = some (.findTube x cell none) → cell < 65536 →
      (∀ (i : Nat) (t : Tube), s.map.at (cellPos cell) = some i → s.tube i = some t →
        x.getLsbD t.state.code = true → exec .findTubeVisit s = .next { s with port := { s.port with
          mode := .executing
          work := some (.findTube x (cell + 1) (some { index := i, pos := cellPos cell, state := t.state })) } }) ∧
      ((∀ (i : Nat) (t : Tube), s.map.at (cellPos cell) = some i → s.tube i = some t →
          x.getLsbD t.state.code = false) →
        exec .findTubeVisit s = .next { s with port := { s.port with
          mode := .executing, work := some (.findTube x (cell + 1) none) } })) ∧
    (∀ ref : EntryRef, s.takes .readEntry rq = true → ref.number < 16384 →
      (s.store.resolve ref = none → exec (.readEntry rq ref) s = .next (s.answer .readEntry .noEntry [])) ∧
      ∀ e : Entry, s.store.resolve ref = some e →
        exec (.readEntry rq ref) s = .next (s.answer .readEntry .ok (readEntryBody s ref e))) ∧
    (s.takes .readCensus rq = true →
      exec (.readCensus rq) s = .next (s.answer .readCensus .ok (censusBody s.map))) ∧
    (∀ n : Fin 8, s.takes .readChannel rq = true →
      exec (.readChannel rq n.val) s =
        .next (s.answer .readChannel .ok (channelBody (s.chan n) (s.walker.cursors.get n)))) ∧
    (∀ n : Fin 8, s.takes .readLink rq = true →
      exec (.readLink rq n.val) s = .next (State.answer
        { s with links := s.links.set n { s.link n with flags := LinkFlags.none, errors := 0 } } .readLink .ok
        (linkBody (s.link n)))) ∧
    (s.takes .readStatus rq = true →
      exec (.readStatus rq) s = .next (s.answer .readStatus .ok (statusBody s s.seekPos))) ∧
    (∀ (i : Nat) (t : Tube) (b : List Byte), b = tubeBody i t → b.length = 15 ∧
      field b 0 2 = i % 65536 ∧ field b 2 1 = t.pos.row % 256 ∧ field b 3 1 = t.pos.col % 256 ∧
      field b 4 1 = t.zone % 256 ∧ field b 5 1 = t.state.code ∧
      field b 6 1 = t.planned.toNat + 2 * t.primaryMark.toNat + 4 * t.secondaryMark.toNat +
        8 * t.truncated.toNat + 16 * t.plugCampaign.isSome.toNat ∧
      (t.claim = none → field b 7 1 = 255) ∧ (∀ n, t.claim = some n → field b 7 1 = n.val) ∧
      field b 8 1 = t.passes % 256 ∧ field b 9 1 = t.attempts % 256 ∧ field b 10 1 = t.entries.length % 256 ∧
      field b 11 1 = t.worstFinal.getD 255 % 256 ∧ field b 12 1 = t.history.getD 255 % 256 ∧
      field b 13 2 = t.plugCampaign.getD 0 % 65536) ∧
    (∀ (r : EntryRef) (e : Entry) (b : List Byte), b = entryBody r e → b.length = 31 ∧
      field b 0 2 = r.number % 65536 ∧ field b 2 1 = r.issue % 256 ∧ field b 3 2 = e.tube % 65536 ∧
      field b 5 2 = e.measured.axial % 65536 ∧ field b 7 1 = e.freq.val + 1 ∧
      field b 8 1 = e.measured.extent % 256 ∧ field b 9 2 = e.measured.phase % 65536 ∧
      field b 11 2 = e.measured.amplitude % 65536 ∧ field b 13 1 = e.measured.saturated.toNat ∧
      field b 14 1 = e.measured.depth % 256 ∧ field b 15 1 = e.measured.landmark.code % 256 ∧
      (field b 16 2 : Int) = e.measured.offset % 65536 ∧ field b 18 1 = e.sightings % 256 ∧
      field b 19 1 = e.firstPass % 256 ∧ field b 20 1 = e.status.code ∧
      (∀ (c : Option Call) (at' : Nat), (c, at') ∈ [(e.primary, 21), (e.secondary, 23), (e.resolution, 25)] →
        (c = none → field b at' 1 = 0 ∧ field b (at' + 1) 1 = 255) ∧
        (∀ d, c = some (.depth d) → field b at' 1 = 1 ∧ field b (at' + 1) 1 = d % 256) ∧
        (∀ x, c = some x → (∀ d, x ≠ .depth d) → field b at' 1 = x.code ∧ field b (at' + 1) 1 = 255)) ∧
      (e.outcome = none → field b 27 1 = 0 ∧ field b 28 1 = 255) ∧
      (∀ d, e.outcome = some (.depth d) → field b 27 1 = 1 ∧ field b 28 1 = d % 256) ∧
      (e.outcome = some .nonQuantifiable → field b 27 1 = 2 ∧ field b 28 1 = 255) ∧
      field b 29 1 = e.reference.getD 255 % 256 ∧ (e.holder = none → field b 30 1 = 255) ∧
      ∀ k, e.holder = some k → field b 30 1 = k.val) ∧
    (∀ (i : Nat) (t : Tube) (b : List Byte), b = readTubeBody s.store i t →
      (∀ n ∈ t.entries, s.store.entry n ≠ none) →
      b.length = 15 + 31 * t.entries.length ∧ b.take 15 = tubeBody i t ∧
      ∀ (j n : Nat) (e : Entry), t.entries[j]? = some n → s.store.entry n = some e →
        (b.drop (15 + 31 * j)).take 31 = entryBody { number := n, issue := (s.store.slot n).issue } e) ∧
    (∀ (r : EntryRef) (e : Entry) (t : Tube), s.tube e.tube = some t → readEntryBody s r e = entryBody r e ++
      [BitVec.ofNat 8 t.pos.row, BitVec.ofNat 8 t.pos.col, BitVec.ofNat 8 t.state.code]) ∧
    (∀ (c : Channel) (p : Option Pos) (b : List Byte), b = channelBody c p → b.length = 65 ∧
      field b 0 1 = c.state.code ∧ field b 1 1 = (c.prior.map ChanState.code).getD 255 ∧
      field b 2 1 = (c.interrupted.map ChanState.code).getD 255 ∧
      (c.claim = none → field b 3 1 = 8 * c.exhausted.toNat + 16 * p.isSome.toNat + 32 * c.lastCount.isSome.toNat ∧
        field b 4 7 = 0) ∧
      (∀ k, c.claim = some k →
        field b 3 1 = 1 + 2 * k.farEnd.toNat + 4 * k.dataGap.toNat + 8 * c.exhausted.toNat + 16 * p.isSome.toNat +
          32 * c.lastCount.isSome.toNat ∧
        field b 4 2 = k.tube % 65536 ∧ field b 6 1 = k.pos.row % 256 ∧ field b 7 1 = k.pos.col % 256 ∧
        field b 8 1 = k.face.code ∧ field b 9 1 = k.pass % 256 ∧ field b 10 1 = k.prior.code) ∧
      field b 11 1 = c.timer.count % 256 ∧ field b 12 1 = c.timer.mode.code ∧
      field b 13 3 = c.lastCount.getD 0 % 16777216 ∧
      (p = none → field b 16 2 = 0) ∧ (∀ x, p = some x → field b 16 1 = x.row % 256 ∧ field b 17 1 = x.col % 256) ∧
      field b 18 1 = c.config.face.code ∧ field b 19 2 = c.config.window.rowLo % 65536 ∧
      field b 21 2 = c.config.window.rowHi % 65536 ∧ field b 23 2 = c.config.window.colLo % 65536 ∧
      field b 25 2 = c.config.window.colHi % 65536 ∧
      (∀ k : Fin 8, (field b 27 1).testBit k.val = c.config.keepouts.get k) ∧
      field b 28 1 = c.config.majorAxis.code ∧ field b 29 1 = c.config.startCorner.code ∧
      field b 30 1 = c.config.serpentine.toNat ∧ field b 31 1 = c.config.mix.toNat ∧
      (∀ k i, k < 8 → i < 8 → (field b (32 + k) 1).testBit i = c.config.pattern.getLsbD (8 * k + i)) ∧
      (∀ k i, k < 2 → i < 8 → (field b (40 + k) 1).testBit i = c.config.zones.getLsbD (8 * k + i)) ∧
      field b 42 1 = c.config.states.untested.toNat + 2 * c.config.states.retest.toNat ∧
      field b 43 1 = c.config.priority % 256 ∧ field b 44 1 = c.config.stallTick.code ∧
      field b 45 1 = c.config.stallReload % 256 ∧
      field b 46 1 = c.config.reloads.enter.toNat + 2 * c.config.reloads.progress.toNat +
        4 * c.config.reloads.indication.toNat + 8 * c.config.reloads.farEnd.toNat +
        16 * c.config.reloads.heartbeat.toNat ∧
      field b 47 2 = c.cal.scale % 65536 ∧
      ∀ f : Fin 4, field b (49 + 4 * f.val) 2 = c.cal.rotation.get f % 65536 ∧
        field b (51 + 4 * f.val) 2 = c.cal.factor.get f % 65536) ∧
    (∀ (l : Link) (b : List Byte), b = linkBody l → b.length = 9 ∧ field b 0 1 = l.rx.code ∧
      (∀ k : Fin 8, (field b 1 1).testBit k.val = l.flags.toList.getD k.val false) ∧ field b 2 1 = l.errors % 256 ∧
      field b 3 1 = l.queue.length % 256 ∧ (l.lastKind = none → field b 4 1 = 0) ∧
      (∀ k, l.lastKind = some k → field b 4 1 = k.code) ∧ field b 5 1 = l.lastSource.getD 0 % 256 ∧
      field b 6 1 = l.policy.code ∧ field b 7 1 = l.strict.toNat ∧
      ∀ k : Fin 8, (field b 8 1).testBit k.val = l.enables.toList.getD k.val false) ∧
    (∀ (m : TubeMap) (b : List Byte), b = censusBody m → b.length = 27 ∧
      (∀ x : TubeState, field b (2 * x.code) 2 = m.census.count x % 65536) ∧
      field b 20 2 = m.census.plannedOpen % 65536 ∧ field b 22 2 = m.tubes.length % 65536 ∧
      field b 24 1 = m.phase.code ∧ field b 25 2 = m.campaign % 65536) ∧
    ∀ b : List Byte, b = statusBody s s.seekPos → b.length = 170 ∧ field b 0 1 = s.map.phase.code ∧
      field b 1 2 = s.map.campaign % 65536 ∧ (s.walker.seek = none → field b 3 1 = 255 ∧ field b 4 9 = 0) ∧
      (∀ k, s.walker.seek = some k → field b 3 1 = k.chan.val ∧ field b 4 2 = k.index % 65536 ∧
        field b 6 1 = (s.seekPos k).row % 256 ∧ field b 7 1 = (s.seekPos k).col % 256 ∧
        field b 8 4 = k.examined % 4294967296 ∧ field b 12 1 = k.renew.toNat + 2 * k.request.isSome.toNat) ∧
      (∀ k : Fin 8, (field b 13 1).testBit k.val = s.walker.waiting.get k) ∧
      field b 14 1 = s.walker.clearance % 256 ∧ field b 15 1 = s.engine.val ∧
      field b 16 1 = s.hand.isSome.toNat ∧ field b 17 1 = s.interlock.low.toNat ∧
      field b 18 1 = s.interlock.latch.toNat ∧
      (∀ f : Fin 4, field b (19 + 27 * f.val) 2 = (s.freqs.get f).threshold % 65536 ∧
        field b (21 + 27 * f.val) 1 = ((s.freqs.get f).curve.getD []).length % 256 ∧
        ∀ (i : Nat) (x : CurvePoint), i < 8 → ((s.freqs.get f).curve.getD [])[i]? = some x →
          field b (22 + 27 * f.val + 3 * i) 2 = x.phase % 65536 ∧
          field b (24 + 27 * f.val + 3 * i) 1 = x.depth % 256) ∧
      field b 127 2 = s.store.free.count % 65536 ∧ field b 129 2 = s.store.inUse.length % 65536 ∧
      field b 131 1 = (!s.store.warnArmed).toNat ∧
      (∀ k : Fin 4, ((s.seats.get k).held = none → field b (132 + 6 * k.val) 6 = 0) ∧
        ∀ (r : EntryRef) (due : Nat), (s.seats.get k).held = some r → (s.seats.get k).expiry = some due →
          field b (132 + 6 * k.val) 1 = 1 ∧ field b (133 + 6 * k.val) 2 = r.number % 65536 ∧
          field b (135 + 6 * k.val) 1 = r.issue % 256 ∧
          field b (136 + 6 * k.val) 2 = (due - s.clock + 999) / 1000 % 65536) ∧
      field b 156 1 = s.notices.pending.length % 256 ∧
      field b 157 1 = s.notices.overflow.toNat + 2 * s.attn.toNat ∧ field b 158 1 = s.notices.floor % 256 ∧
      ∀ c : NoticeClass, field b (159 + c.number) 1 = s.notices.levels.get c % 256

/-- A post (R188, R189) of class `c` and subject `n`, in the order of the rules. -/
def Obligations.PostRules : Prop :=
  ∀ (u : NoticeUnit) (c : NoticeClass) (n : Nat),
    (u.levels.get c = 0 → u.post c n = u) ∧
    ({ cls := c, subject := n } ∈ u.pending → u.post c n = u) ∧
    (u.levels.get c ≠ 0 → { cls := c, subject := n } ∉ u.pending →
      (u.pending.length < 32 → u.post c n = { u with pending := (u.post c n).pending } ∧
        ∀ m, m ∈ (u.post c n).pending ↔ m = { cls := c, subject := n } ∨ m ∈ u.pending) ∧
      (32 ≤ u.pending.length → u.pending.Nodup →
        (∀ m ∈ u.pending, u.levels.get c ≤ u.levels.get m.cls) ∧ u.post c n = { u with overflow := true } ∨
        ∃ low ∈ u.pending, u.levels.get low.cls < u.levels.get c ∧
          (∀ m ∈ u.pending, m ≠ low → u.levels.get low.cls < u.levels.get m.cls ∨
            (u.levels.get low.cls = u.levels.get m.cls ∧ (m.cls.number < low.cls.number ∨
              (m.cls.number = low.cls.number ∧ m.subject < low.subject)))) ∧
          u.post c n = { u with pending := (u.post c n).pending, overflow := true } ∧
          (u.post c n).pending.length = u.pending.length ∧
          ∀ m, m ∈ (u.post c n).pending ↔ m = { cls := c, subject := n } ∨ (m ∈ u.pending ∧ m ≠ low)))

/-- SET_NOTICE_LEVEL (R187), SET_FLOOR with ATTN# (R191), SET_WATCH (R39) and TAKE_NOTICE (R192), with the item of each
class at its four bytes (R192, 11.4), read as the part stands. The bytes in which SET_FLOOR and SET_WATCH answer are log
8's. That a refusal by the command's own check carries an empty body is log 25's. -/
def Obligations.NoticeCommands : Prop :=
  ∀ (rq : Requester) (s : State),
    (∀ (n : Notice) (b : List Byte), b = noticeItem s n →
      (n.cls = .blocked ∨ n.cls = .plugCall ∨ n.cls = .dispute →
        (s.tube n.subject = none → b = [0#8, 0#8, 0#8, 0#8]) ∧
        ∀ t, s.tube n.subject = some t →
          b = [1#8, BitVec.ofNat 8 t.pos.row, BitVec.ofNat 8 t.pos.col, BitVec.ofNat 8 t.state.code]) ∧
      (∀ k : Fin 4, n.cls = .watch → n.subject = k.val →
        (s.map.watches.get k = none → b = [0#8, 0#8, 0#8, 0#8]) ∧
        ∀ p i t, s.map.watches.get k = some p → s.map.at p = some i → s.tube i = some t →
          b = [1#8, BitVec.ofNat 8 p.row, BitVec.ofNat 8 p.col, BitVec.ofNat 8 t.state.code]) ∧
      (∀ k : Fin 8, n.cls = .stall ∨ n.cls = .exhausted → n.subject = k.val →
        ((s.chan k).claim = none → b = [BitVec.ofNat 8 (s.chan k).state.code, 0#8, 0#8, 0#8]) ∧
        ∀ c, (s.chan k).claim = some c →
          b = [BitVec.ofNat 8 (s.chan k).state.code, 1#8, BitVec.ofNat 8 c.pos.row, BitVec.ofNat 8 c.pos.col]) ∧
      (∀ k : Fin 8, n.cls = .link → n.subject = k.val →
        b = [BitVec.ofNat 8 (s.link k).rx.code, BitVec.ofNat 8 (s.link k).errors, 0#8, 0#8]) ∧
      (∀ k : Fin 4, n.cls = .holdExpired → n.subject = k.val →
        ((s.seats.get k).held = none → b = [0#8, 0#8, 0#8, 0#8]) ∧
        ∀ r, (s.seats.get k).held = some r →
          b = [1#8, BitVec.ofNat 8 (r.number / 256), BitVec.ofNat 8 r.number, BitVec.ofNat 8 r.issue]) ∧
      (n.cls = .interlock →
        b = [if s.interlock.low then 1#8 else 0#8, if s.interlock.latch then 1#8 else 0#8, 0#8, 0#8]) ∧
      (n.cls = .pool →
        b = [BitVec.ofNat 8 (s.store.free.count / 256), BitVec.ofNat 8 s.store.free.count, 0#8, 0#8]) ∧
      (n.cls = .campaignComplete →
        b = [BitVec.ofNat 8 (s.map.census.plannedOpen / 256), BitVec.ofNat 8 s.map.census.plannedOpen, 0#8, 0#8])) ∧
    (∀ cls level : Nat, s.takes .setNoticeLevel rq = true →
      (10 < cls ∨ 7 < level →
        exec (.setNoticeLevel rq cls level) s = .next (s.answer .setNoticeLevel .range [])) ∧
      ∀ c : NoticeClass, c.number = cls → level ≤ 7 →
        ∃ u, exec (.setNoticeLevel rq cls level) s = .next u ∧ u.notices.levels.get c = level ∧
          (∀ d, d ≠ c → u.notices.levels.get d = s.notices.levels.get d) ∧
          (level ≠ 0 → u.notices.pending = s.notices.pending ∧ u.notices.overflow = s.notices.overflow) ∧
          (level = 0 → u.notices.pending = s.notices.pending.filter (fun n => decide (n.cls ≠ c)) ∧
            (u.notices.pending = [] → s.notices.pending ≠ [] → u.notices.overflow = false) ∧
            (u.notices.pending ≠ [] ∨ s.notices.pending = [] → u.notices.overflow = s.notices.overflow)) ∧
          u.notices.floor = s.notices.floor ∧
          u.port.response = some
            { command := 0x27#8, status := .ok, overrun := s.port.overrun,
              body := u.notices.levels.toList.map (BitVec.ofNat 8) } ∧
          u = { s with notices := u.notices, port := u.port }) ∧
    (∀ floor : Nat, floor ≤ 7 → s.takes .setFloor rq = true → ∃ u, exec (.setFloor rq floor) s = .next u ∧
      u.notices = { s.notices with floor } ∧
      (u.attn = true ↔ ∃ n ∈ s.notices.pending, floor < s.notices.levels.get n.cls) ∧
      u.port.response = some
        { command := 0x28#8, status := .ok, overrun := s.port.overrun, body := byte1 floor ++ flag1 u.attn } ∧
      u = { s with notices := u.notices, port := u.port }) ∧
    (∀ (k : Fin 4) (p : Option Pos), s.takes .setWatch rq = true →
      (∀ x, p = some x → x.inGrid = true → s.map.at x = none →
        exec (.setWatch rq k.val p) s = .next (s.answer .setWatch .noTube [])) ∧
      (p = none ∨ (∃ x i, p = some x ∧ x.inGrid = true ∧ s.map.at x = some i) →
        ∃ w : Four (Option Pos), w.get k = p ∧ (∀ j, j ≠ k → w.get j = s.map.watches.get j) ∧
          exec (.setWatch rq k.val p) s =
            .next (State.answer { s with map := { s.map with watches := w } } .setWatch .ok (watchesBody w)))) ∧
    (s.takes .takeNotice rq = true →
      (s.notices.pending = [] → exec (.takeNotice rq) s = .next (s.answer .takeNotice .ok
        (0xFF#8 :: List.replicate 7 0#8 ++ flag1 s.notices.overflow))) ∧
      (s.notices.pending ≠ [] → ∃ n ∈ s.notices.pending,
        (∀ m ∈ s.notices.pending, m = n ∨ s.notices.levels.get m.cls < s.notices.levels.get n.cls ∨
          (s.notices.levels.get m.cls = s.notices.levels.get n.cls ∧ (n.cls.number < m.cls.number ∨
            (n.cls.number = m.cls.number ∧ n.subject < m.subject)))) ∧
        exec (.takeNotice rq) s = .next (State.answer
          { s with notices := { s.notices with
              pending := s.notices.pending.erase n
              overflow := s.notices.overflow && decide (s.notices.pending.erase n ≠ []) } } .takeNotice .ok
          (byte1 n.cls.number ++ byte2 n.subject ++ byte1 (s.notices.levels.get n.cls) ++ noticeItem s n ++
            flag1 s.notices.overflow))))

/-! ## Probe links -/

/-- Hunting and the header (R86, R87), and an error event (R93, R94): the sync word, one bit from it, or neither; the
header CRC right or wrong, under either recovery policy. The row carries the sixteen bits, or the four bytes (log
19). That SYNC_WORD_FOUND outside HUNT, or without a sync word, and HEADER_CHECK outside HEADER change nothing is the
model's choice (log 1) but for FAULT, where R92 says so. -/
def Obligations.SyncAndHeader : Prop :=
  ∀ (s : State) (n : Fin 8),
    (∀ e : LinkError,
      (s.linkError n e).link n =
        { s.link n with flags := ((s.linkError n e).link n).flags, errors := min ((s.link n).errors + 1) 255 } ∧
      (∀ d, ((s.linkError n e).link n).flags.get d = true ↔ d = e ∨ (s.link n).flags.get d = true) ∧
      (∀ m, m ≠ n → (s.linkError n e).link m = s.link m) ∧
      (s.linkError n e).notices =
        (if (s.link n).enables.get e then s.notices.post .link n.val else s.notices) ∧
      s.linkError n e = { s with links := (s.linkError n e).links, notices := (s.linkError n e).notices }) ∧
    (∀ w : BitVec 16, s.held = false →
      ((s.link n).rx = .hunt → w = 0xB38E#16 → exec (.syncWordFound n w) s =
        .next (s.setLinkRx n { s.link n with rx := .header, header := none, gathered := [] })) ∧
      ((s.link n).rx = .hunt → (∃ i, i < 16 ∧ w = 0xB38E#16 ^^^ BitVec.twoPow 16 i) → exec (.syncWordFound n w) s =
        .next ((s.setLinkRx n { s.link n with rx := .header, header := none, gathered := [] }).linkError n
          .syncCorrected)) ∧
      ((s.link n).rx ≠ .hunt ∨ (w ≠ 0xB38E#16 ∧ ∀ i, i < 16 → w ≠ 0xB38E#16 ^^^ BitVec.twoPow 16 i) →
        exec (.syncWordFound n w) s = .next s)) ∧
    ∀ source kind length crc : Byte, s.held = false →
      ((s.link n).rx ≠ .header → exec (.headerCheck n [source, kind, length, crc]) s = .next s) ∧
      ((s.link n).rx = .header → (s.link n).gathered = [] →
        (crc.toNat = crc8 [source, kind, length] → exec (.headerCheck n [source, kind, length, crc]) s =
          .next (s.setLinkRx n
            { s.link n with
              rx := .payload, gathered := []
              header := some { source := source.toNat, kind := kind.toNat, length := length.toNat } })) ∧
        (crc.toNat ≠ crc8 [source, kind, length] → exec (.headerCheck n [source, kind, length, crc]) s =
          .next ((s.setLinkRx n
            { s.link n with
              rx := if (s.link n).policy = .auto then .hunt else .fault
              header := none, gathered := [] }).linkError n .headerDamaged)))

/-- A complete frame is judged (R88, R89), and a valid one is queued, or lost with a data gap mark (R90, R91). `s0` is
the part with the receiver back in HUNT. The kind codes and the fixed length of each kind are those of R195. -/
def Obligations.FrameJudged : Prop :=
  (∀ n : Nat, reportKindOf n =
    if n = 1 then some .enter else if n = 2 then some .progress else if n = 3 then some .indication
    else if n = 4 then some .farEnd else if n = 5 then some .exit else if n = 6 then some .obstructed
    else if n = 7 then some .heartbeat else none) ∧
  (∀ k : ReportKind, k.length = if k = .progress then 7 else if k = .indication then 14 else 4) ∧
  ∀ (s s0 : State) (n : Fin 8) (h : FrameHeader) (payload : List Byte) (c1 c2 : Byte),
    s.held = false → (s.link n).rx = .payload → (s.link n).header = some h → (s.link n).gathered = [] →
    payload.length = h.length →
    s0 = s.setLinkRx n { s.link n with rx := .hunt, header := none, gathered := [] } →
    (bytesNat [c1, c2] ≠ crc16 payload →
      exec (.frameComplete n (payload ++ [c1, c2])) s = .next (s0.linkError n .payloadDamaged)) ∧
    (bytesNat [c1, c2] = crc16 payload →
      (reportKindOf h.kind = none →
        exec (.frameComplete n (payload ++ [c1, c2])) s = .next (s0.linkError n .kind)) ∧
      ∀ kind : ReportKind, reportKindOf h.kind = some kind →
        (h.length ≠ kind.length →
          exec (.frameComplete n (payload ++ [c1, c2])) s = .next (s0.linkError n .length)) ∧
        (h.length = kind.length → h.source ≠ n.val → (s.link n).strict = true →
          exec (.frameComplete n (payload ++ [c1, c2])) s = .next (s0.linkError n .source)) ∧
        ∀ s1 : State, h.length = kind.length → h.source = n.val ∨ (s.link n).strict = false →
          s1 = (if h.source = n.val then s0 else s0.linkError n .source) →
          ((s.link n).queue.length < 16 → exec (.frameComplete n (payload ++ [c1, c2])) s =
            .next (s1.setLinkRx n
              { s1.link n with
                lastKind := some kind, lastSource := some h.source
                queue := (s.link n).queue ++ [{ kind, payload, chan := n }] })) ∧
          (16 ≤ (s.link n).queue.length → ∃ u, exec (.frameComplete n (payload ++ [c1, c2])) s = .next u ∧
            u.chan n = { s.chan n with gapMarks := (s.chan n).gapMarks + 1 } ∧
            (∀ m, m ≠ n → u.chan m = s.chan m) ∧
            u = { (s1.setLinkRx n
              { s1.link n with lastKind := some kind, lastSource := some h.source }).linkError n .queueOverrun with
              chans := u.chans }))

/-- The transmitter (R99): a message joins behind those decided before it, the oldest waiting one dropped when 8 wait; a
message sent starts the next. Its frame (R195): sync word, source, kind code 11h to 14h, length 4, the CRC-8 of these
three bytes, the echo, and its CRC-16. A data gap mark or an overtravel mark on its way sets the data gap flag of the
claim it finds (R91, R109, R130); that a mark is counted on its way, and none comes where none is, is log 5; that
MESSAGE_SENT of an idle transmitter changes nothing is log 1. -/
def Obligations.MessagesAndMarks : Prop :=
  (∀ (t : Transmitter) (m : Message),
    (t.sending = none → t.enqueue m = { t with sending := some m }) ∧
    (t.sending ≠ none → t.waiting.length < 8 → t.enqueue m = { t with waiting := t.waiting ++ [m] }) ∧
    (∀ old rest, t.sending ≠ none → t.waiting = old :: rest → rest.length = 7 →
      t.enqueue m = { t with waiting := rest ++ [m] })) ∧
  (∀ (m : Message) (n : Fin 8), (m.frame n).length = 12 ∧
    (m.frame n).take 5 = [0xB3#8, 0x8E#8, BitVec.ofNat 8 n.val, BitVec.ofNat 8 m.kind.code, 4#8] ∧
    (m.kind = .assign → m.kind.code = 0x11) ∧ (m.kind = .hold → m.kind.code = 0x12) ∧
    (m.kind = .release → m.kind.code = 0x13) ∧ (m.kind = .cancel → m.kind.code = 0x14) ∧
    ((m.frame n).drop 5).take 1 = [BitVec.ofNat 8 (crc8 ((m.frame n).drop 2 |>.take 3))] ∧
    ((m.frame n).drop 6).take 4 = [BitVec.ofNat 8 m.echo.pos.row, BitVec.ofNat 8 m.echo.pos.col,
      BitVec.ofNat 8 m.echo.face.code, BitVec.ofNat 8 m.echo.pass] ∧
    bytesNat ((m.frame n).drop 10) = crc16 ((m.frame n).drop 6 |>.take 4)) ∧
  (crc8 [] = 0 ∧ (∀ (l : List Byte) (b : Byte), crc8 (l ++ [b]) = crc8Bit^[8] (crc8 l ^^^ b.toNat)) ∧
    ∀ v, v < 256 → crc8Bit v = if v < 128 then 2 * v else (2 * v - 256) ^^^ 0x07) ∧
  ∀ (s : State) (n : Fin 8), s.held = false →
    ((s.txs.get n).sending = none → exec (.messageSent n) s = .next s) ∧
    ((s.txs.get n).sending ≠ none → (s.txs.get n).waiting = [] →
      exec (.messageSent n) s = .next { s with txs := s.txs.set n { sending := none, waiting := [] } }) ∧
    (∀ m rest, (s.txs.get n).sending ≠ none → (s.txs.get n).waiting = m :: rest →
      exec (.messageSent n) s = .next { s with txs := s.txs.set n { sending := some m, waiting := rest } }) ∧
    ((s.chan n).gapMarks = 0 → exec (.dataGapMark n) s = .next s) ∧
    (0 < (s.chan n).gapMarks → exec (.dataGapMark n) s = .next { s with
      chans := s.chans.set n
        { s.chan n with
          gapMarks := (s.chan n).gapMarks - 1
          claim := (s.chan n).claim.map (fun k => { k with dataGap := true }) } }) ∧
    ((s.chan n).overtravelMarks = 0 → exec (.overtravelMark n) s = .next s) ∧
    (0 < (s.chan n).overtravelMarks → exec (.overtravelMark n) s = .next { s with
      chans := s.chans.set n
        { s.chan n with
          overtravelMarks := (s.chan n).overtravelMarks - 1
          claim := (s.chan n).claim.map (fun k => { k with dataGap := true }) } })

/-! ## Passes -/

/-- Which report the engine takes (R100), which reports a channel accepts (R102, R103), and a refused report (R101):
it leaves its queue, and SEQUENCE is raised on its link. An accepted HEARTBEAT reloads a running timer where it is a
reload event, and changes nothing else (R108). A REPORT_TAKE with no report waiting or in hand changes nothing (log 1);
one that carries out a moment alone takes the report in hand (log 13). -/
def Obligations.ReportsJudged : Prop :=
  (∀ (s : State) (n : Fin 8), s.engineChoice = some n ↔
    ∃ d, 1 ≤ d ∧ d ≤ 8 ∧ n.val = (s.engine.val + d) % 8 ∧ (s.link n).queue ≠ [] ∧
      ∀ m : Fin 8, ∀ e, 1 ≤ e → e < d → m.val = (s.engine.val + e) % 8 → (s.link m).queue = []) ∧
  (∀ s : State, s.held = false → s.hand = none → (∀ n : Fin 8, (s.link n).queue = []) →
    ∀ ext, exec (.reportTake ext) s = .next s) ∧
  (∀ (s : State) (n : Fin 8) (r : Report) (rest : List Report), s.held = false → s.hand = none →
    s.engineChoice = some n → (s.link n).queue = r :: rest →
    exec (.reportTake .moment) s = .next
      { s with links := s.links.set n { s.link n with queue := rest }, engine := n, hand := some (.taken n r) }) ∧
  (∀ c : Channel,
    (c.state ≠ .stalled → c.state ≠ .halted → c.working = c.state) ∧
    (∀ p, c.state = .stalled → c.prior = some p → c.working = p) ∧
    (∀ p, c.state = .halted → c.prior = some p → p ≠ .stalled → c.working = p) ∧
    (∀ p, c.state = .halted → c.prior = some .stalled → c.interrupted = some p → c.working = p)) ∧
  (∀ (c : Channel) (r : Report), c.accepts r = true ↔
    (r.kind = .heartbeat ∧
      (c.working = .idle ∨ c.working = .seeking ∨ c.working = .assigned ∨ c.working = .probing)) ∨
    (r.kind ≠ .heartbeat ∧ (r.kind = .enter → c.working = .assigned) ∧ (r.kind ≠ .enter → c.working = .probing) ∧
      ∃ k : Claim, c.claim = some k ∧ field r.payload 0 1 = k.pos.row ∧ field r.payload 1 1 = k.pos.col ∧
        field r.payload 2 1 = k.face.code ∧ field r.payload 3 1 = k.pass)) ∧
  (∀ (s s0 : State) (ext : TakeExtent) (n : Fin 8) (r : Report), s.held = false → s.handles ext n r s0 →
    (s.chan r.chan).accepts r = false → exec (.reportTake ext) s = .next (s0.linkError n .sequence)) ∧
  (∀ (s s0 : State) (ext : TakeExtent) (n : Fin 8) (r : Report) (c : Channel), s.held = false →
    s.handles ext n r s0 → r.kind = .heartbeat → c = s.chan r.chan → c.accepts r = true →
    exec (.reportTake ext) s = .next
      { s0 with
        chans := s.chans.set r.chan
          { c with timer :=
              if c.config.reloads.heartbeat = true ∧ c.timer.mode = .running then c.timer.load c.config s.clock
              else c.timer } })

/-- Accepted ENTER, PROGRESS, INDICATION and FAR_END (R104 to R107, R114): `s0` is the part with the
report out of its queue; `timer` is the stall timer, loaded anew where the report reloads it. A measurement goes to the
store in the same REPORT_TAKE, or, where that carries out a moment alone, in the next, if its claim is still held then
(R139; log 13). -/
def Obligations.PassEvents : Prop :=
  (∀ (s : State) (ext : TakeExtent) (n : Fin 8), s.held = false → s.hand = some (.filing n) →
    ((s.chan n).filing = none → exec (.reportTake ext) s = .next { s with hand := none }) ∧
    ∀ m : Measurement, (s.chan n).filing = some m → exec (.reportTake ext) s =
      .next (State.fileMeasurement
        { s with hand := none, chans := s.chans.set n { s.chan n with filing := none } } m)) ∧
  ∀ (s s0 : State) (ext : TakeExtent) (n : Fin 8) (r : Report) (c : Channel) (k : Claim) (ev : Bool) (timer : StallTimer),
    s.held = false → s.handles ext n r s0 → c = s.chan r.chan → c.accepts r = true → c.claim = some k →
    ev = (match r.kind with
      | .enter => c.config.reloads.enter
      | .progress => c.config.reloads.progress
      | .indication => c.config.reloads.indication
      | .farEnd => c.config.reloads.farEnd
      | .heartbeat => c.config.reloads.heartbeat
      | .exit | .obstructed => false) →
    timer = (if ev = true ∧ c.timer.mode = .running then c.timer.load c.config s.clock else c.timer) →
    (r.kind = .enter → ∀ u, s.tube k.tube = some u → u.state = .claimed → ∃ t, exec (.reportTake ext) s = .next t ∧
      t.tube k.tube = some { u with state := .inTest, primaryMark := false, secondaryMark := false } ∧
      (∀ j, j ≠ k.tube → t.tube j = s.tube j) ∧ s.completes t ∧
      (c.state = .assigned → t.chan r.chan = { c with state := .probing, timer }) ∧
      (c.state = .stalled ∨ (c.state = .halted ∧ c.prior = some .assigned) →
        t.chan r.chan = { c with prior := some .probing, timer }) ∧
      (c.state = .halted → c.prior = some .stalled →
        t.chan r.chan = { c with interrupted := some .probing, timer }) ∧
      (∀ m, m ≠ r.chan → t.chan m = s.chan m) ∧ s.watched t k.tube ∧
      t = { s0 with
        map := { s.map with tubes := t.map.tubes, census := t.map.census, armed := t.map.armed }
        notices := t.notices, chans := t.chans }) ∧
    (r.kind = .progress →
      (c.lastCount = some (field r.payload 4 3) → exec (.reportTake ext) s = .next s0) ∧
      (c.lastCount ≠ some (field r.payload 4 3) → exec (.reportTake ext) s = .next { s0 with
        chans := s.chans.set r.chan { c with lastCount := some (field r.payload 4 3), timer } })) ∧
    (r.kind = .farEnd → exec (.reportTake ext) s = .next { s0 with
      chans := s.chans.set r.chan { c with claim := some { k with farEnd := true }, timer } }) ∧
    (r.kind = .indication → ∀ x : Indication,
      x = { count := field r.payload 4 3, freq := field r.payload 7 1, phaseRaw := field r.payload 8 2,
            amplitudeRaw := field r.payload 10 2, extentCount := field r.payload 12 2 } →
      ∀ out : Reduced, out = reduce s.map.params (s.map.landmarks.getD []) s.freqs k c.cal x →
      (out = .discarded → exec (.reportTake ext) s = .next { s0 with chans := s.chans.set r.chan { c with timer } }) ∧
      (out = .overtravel → exec (.reportTake ext) s = .next { s0 with
        chans := s.chans.set r.chan { c with timer, overtravelMarks := c.overtravelMarks + 1 } }) ∧
      ∀ m, out = .measured m →
        (ext = .whole → exec (.reportTake ext) s =
          .next (State.fileMeasurement { s0 with chans := s.chans.set r.chan { c with timer } } m)) ∧
        (ext = .moment → exec (.reportTake ext) s = .next { s0 with
          chans := s.chans.set r.chan { c with timer, filing := some m }, hand := some (.filing r.chan) }))

/-- EXIT and OBSTRUCTED (R110, R111, R26 to R29): the outcome by the claim's two flags, the tube's new record, the
claim dropped, the timer stopped, the channel IDLE, or HALTED with prior state IDLE; no message is sent. A tube that
becomes RETEST gives the candidates-changed signal to every channel (R37), which clears the exhausted flag of this one
too; an IDLE channel seeks where its level is above 0 and its flag clear (R43). The watch slots on the tube post
(R40), and the completion check follows a change of its counts (R19). No measurement waits at the channel any more
(R139), overtravel marks on their way are dropped and data gap marks stay (log 5). -/
def Obligations.PassEnds : Prop :=
  ∀ (s s0 : State) (ext : TakeExtent) (n : Fin 8) (r : Report) (c : Channel) (k : Claim) (u : Tube),
    s.held = false → s.handles ext n r s0 → c = s.chan r.chan →
    c.accepts r = true → c.claim = some k → r.kind = .exit ∨ r.kind = .obstructed → s.tube k.tube = some u →
    u.state = .inTest →
    ∃ (t : State) (v : Tube), exec (.reportTake ext) s = .next t ∧ t.tube k.tube = some v ∧
      (r.kind = .exit → k.farEnd = true → k.dataGap = false → v = Tube.evaluated
        { u with claim := none, state := .tested, passes := min (u.passes + 1) 15 } s.map.params.plugLimit s.store) ∧
      (r.kind = .exit → k.farEnd = true → k.dataGap = true → v = { u with claim := none, state := .retest }) ∧
      (r.kind = .obstructed ∨ k.farEnd = false →
        (u.attempts + 1 < s.map.params.attemptLimit →
          v = { u with claim := none, state := .retest, attempts := u.attempts + 1 }) ∧
        (u.attempts + 1 = s.map.params.attemptLimit →
          v = { u with claim := none, state := .blocked, attempts := u.attempts + 1 } ∧
          t.notices.told .blocked k.tube)) ∧
      (∀ j, j ≠ k.tube → t.tube j = s.tube j) ∧
      (t.chan r.chan).claim = none ∧ (t.chan r.chan).lastCount = none ∧ (t.chan r.chan).timer.mode = .stopped ∧
      (t.chan r.chan).timer.count = 0 ∧ (t.chan r.chan).config = c.config ∧ (t.chan r.chan).cal = c.cal ∧
      (t.chan r.chan).filing = none ∧ (t.chan r.chan).overtravelMarks = 0 ∧ (t.chan r.chan).gapMarks = c.gapMarks ∧
      (c.state = .probing ∨ c.state = .stalled →
        (t.chan r.chan).prior = none ∧ (t.chan r.chan).interrupted = none ∧
        ∃ seeks : Bool, seeks = decide (0 < c.config.priority ∧ (c.exhausted = false ∨ v.state = .retest)) ∧
          (t.chan r.chan).state = (if seeks then .seeking else .idle) ∧
          (seeks = true → t.walker.waiting.get r.chan = true)) ∧
      (t.chan r.chan).exhausted = (c.exhausted && decide (v.state ≠ .retest)) ∧
      (c.state = .halted → (t.chan r.chan).state = .halted ∧ (t.chan r.chan).prior = some .idle ∧
        (t.chan r.chan).interrupted = none) ∧
      (∀ m, m ≠ r.chan →
        (v.state = .retest → s.signalledChannel t m) ∧ (v.state ≠ .retest → s.sameChannel t m)) ∧
      s.watched t k.tube ∧ (s.censusTrue → s.completes t) ∧
      t = { s0 with
        map := { s.map with tubes := t.map.tubes, census := t.map.census, armed := t.map.armed }
        notices := t.notices, chans := t.chans
        walker := { s.walker with waiting := t.walker.waiting, seek := t.walker.seek } }

/-- The stall timer (R112, R113, R115): a load, a tick, and the expiry, which stalls the channel, freezes the timer at
0, sends HOLD and posts STALL, and leaves the claim and the tubes as they were. A tick that brings the count to 0 is the
expiry (log 2), and the clock stands at the tick (log 3). That STALL_EXPIRY before the last tick, and both rows of a
timer that does not run, change nothing is log 1. -/
def Obligations.StallTimerExpires : Prop :=
  (∀ (t : StallTimer) (cfg : Config) (now : Nat),
    (cfg.stallReload = 0 → (t.load cfg now).mode = .stopped ∧ (t.load cfg now).count = 0) ∧
    (0 < cfg.stallReload → t.load cfg now =
      { mode := .running, count := cfg.stallReload, tick := cfg.stallTick, nextTick := now + cfg.stallTick.millis })) ∧
  ∀ (s : State) (n : Fin 8) (c : Channel), s.held = false → c = s.chan n →
    (c.timer.mode ≠ .running →
      exec (.stallTimerTick n) s = .next s ∧ exec (.stallExpiry n) s = .next s) ∧
    (c.timer.mode = .running → 1 < c.timer.count →
      exec (.stallExpiry n) s = .next s ∧
      exec (.stallTimerTick n) s = .next { s with
        clock := max s.clock c.timer.nextTick
        chans := s.chans.set n { c with timer := { c.timer with
          count := c.timer.count - 1, nextTick := c.timer.nextTick + c.timer.tick.millis } } }) ∧
    (∀ k : Claim, c.timer.mode = .running → c.timer.count = 1 → c.state = .assigned ∨ c.state = .probing →
      c.claim = some k → ∃ u, exec (.stallExpiry n) s = .next u ∧ exec (.stallTimerTick n) s = .next u ∧
        u = { s with
          clock := max s.clock c.timer.nextTick
          chans := s.chans.set n
            { c with state := .stalled, prior := some c.state, timer := { c.timer with mode := .frozen, count := 0 } }
          txs := s.txs.set n ((s.txs.get n).enqueue { kind := .hold, echo := k.echo })
          notices := s.notices.post .stall n.val })

/-! ## Reduction and filing -/

/-- The reduction of an indication (R128 to R139) under claim `k` and calibration `cal`: the two discards, the
overtravel, and each field of the measurement; the depth from a loaded valid curve (R136, R137), the location among
rising supports (R138). -/
def Obligations.IndicationReduced : Prop :=
  ∀ (params : Params) (supports : List Nat) (freqs : Four FreqSettings) (k : Claim) (cal : Calibration)
    (x : Indication) (out : Reduced), out = reduce params supports freqs k cal x →
    (x.freq < 1 ∨ 4 < x.freq ∨ 4095 < x.phaseRaw → out = .discarded) ∧
    ∀ (f : Fin 4) (travel raw phase : Nat), x.freq = f.val + 1 → x.phaseRaw ≤ 4095 →
      travel = (x.count * cal.scale + 500) / 1000 → raw = (x.amplitudeRaw * cal.factor.get f + 512) / 1024 →
      phase = (if 3600 ≤ (x.phaseRaw * 225 + 128) / 256 + cal.rotation.get f
        then (x.phaseRaw * 225 + 128) / 256 + cal.rotation.get f - 3600
        else (x.phaseRaw * 225 + 128) / 256 + cal.rotation.get f) →
      (params.length + params.overtravel < travel → out = .overtravel) ∧
      (travel ≤ params.length + params.overtravel →
        (min raw 4095 < (freqs.get f).threshold → out = .discarded) ∧
        ((freqs.get f).threshold ≤ min raw 4095 → ∃ m : Measurement, out = .measured m ∧
          m.tube = k.tube ∧ m.pass = k.pass ∧ m.freq = f ∧
          (k.face = .inlet → m.measured.axial = min travel params.length) ∧
          (k.face = .outlet → m.measured.axial = params.length - min travel params.length) ∧
          m.measured.extent = min ((x.extentCount * cal.scale + 500) / 1000) 255 ∧ m.measured.phase = phase ∧
          m.measured.amplitude = min raw 4095 ∧ (m.measured.saturated = true ↔ 4095 < raw) ∧
          (∀ curve : List CurvePoint, (freqs.get f).curve = some curve → curveValid curve = true →
            m.measured.depth ≤ 100 ∧
            (∀ a, curve.head? = some a → phase ≤ a.phase → m.measured.depth = a.depth) ∧
            (∀ a, curve.getLast? = some a → a.phase ≤ phase → m.measured.depth = a.depth) ∧
            ∀ (i : Nat) (a b : CurvePoint), curve[i]? = some a → curve[i + 1]? = some b → a.phase ≤ phase →
              phase < b.phase → ∃ q num : Int, (m.measured.depth : Int) = a.depth + q ∧
                num = ((b.depth : Int) - a.depth) * ((phase : Int) - a.phase) ∧
                (0 ≤ num → 0 ≤ q) ∧ (num ≤ 0 → q ≤ 0) ∧
                2 * (b.phase - a.phase) * q.natAbs ≤ 2 * num.natAbs + (b.phase - a.phase) ∧
                2 * num.natAbs + (b.phase - a.phase) < 2 * (b.phase - a.phase) * (q.natAbs + 1)) ∧
          (supports.Pairwise (· < ·) → (∀ p ∈ supports, 1 ≤ p ∧ p ≤ params.length - 1) → 1 ≤ params.length →
            ∃ pos : Nat, m.measured.offset = (m.measured.axial : Int) - pos ∧
              ((m.measured.landmark = .tsi ∧ pos = 0) ∨ (m.measured.landmark = .tso ∧ pos = params.length) ∨
                ∃ i, supports[i]? = some pos ∧ m.measured.landmark = .support (i + 1)) ∧
              ∀ p, p = 0 ∨ p = params.length ∨ p ∈ supports →
                apart pos m.measured.axial < apart p m.measured.axial ∨
                  (apart pos m.measured.axial = apart p m.measured.axial ∧ pos ≤ p))))

/-- Filing a measurement under a tube (R146 to R154): merge with the nearest entry of its frequency within the merge
window, peak hold and reopen; otherwise a creation, the list-full rule, or the empty pool. A place in the list is sorted
by axial position, then frequency (R145). An entry that joins or leaves the list, or is reopened, is watched (R40). A
creation judges the pool warning (R155), and so does a replacement twice (R152): a free count that stood at the level
posts POOL again. The completion check follows a change of its counts (R19). -/
def Obligations.FilingRules : Prop :=
  (∀ a b : Entry, a.before b = true ↔ a.measured.axial < b.measured.axial ∨
    (a.measured.axial = b.measured.axial ∧ a.freq.val < b.freq.val)) ∧
  ∀ (s u : State) (m : Measurement) (t : Tube), s.tube m.tube = some t → u = s.fileMeasurement m →
    (∀ j, j ≠ m.tube → (∀ n ∈ t.entries, ∀ e, s.store.entry n = some e → e.tube ≠ j) → u.tube j = s.tube j) ∧
    u = { s with
      map := { s.map with tubes := u.map.tubes, census := u.map.census, armed := u.map.armed }
      store := u.store, seats := u.seats, notices := u.notices } ∧
    (s.censusTrue → s.completes u) ∧
    (∀ (n : Nat) (e : Entry), (s.store.listed t.entries).Pairwise
          (fun a b => a.2.measured.axial ≤ b.2.measured.axial) →
      n ∈ t.entries → s.store.entry n = some e → e.tube = m.tube → e.freq = m.freq →
      apart e.measured.axial m.measured.axial ≤ s.map.params.mergeWindow →
      (∀ j ∈ t.entries, ∀ f, s.store.entry j = some f → f.freq = m.freq → j ≠ n →
        apart e.measured.axial m.measured.axial < apart f.measured.axial m.measured.axial ∨
        (apart e.measured.axial m.measured.axial = apart f.measured.axial m.measured.axial ∧
          e.measured.axial < f.measured.axial)) →
      (m.measured.amplitude ≤ e.measured.amplitude → u =
        { s with store := s.store.setEntry n { e with sightings := min (e.sightings + 1) 15 } }) ∧
      (e.measured.amplitude < m.measured.amplitude →
        ∃ (e2 : Entry) (l l1 l2 : List Nat) (grown : Prop),
          (grown ↔ (e.status = .final ∧ ∃ d, e.outcome = some (.depth d) ∧
              d + s.map.params.growth ≤ m.measured.depth) ∨
            (e.status = .dismissed ∧ ∃ r, e.reference = some r ∧ r + s.map.params.growth ≤ m.measured.depth)) ∧
          (¬ grown → e2 = { e with sightings := min (e.sightings + 1) 15, measured := m.measured }) ∧
          (grown → e2 =
            { e with sightings := min (e.sightings + 1) 15, measured := m.measured, status := .new, primary := none,
                     secondary := none, resolution := none, outcome := none, reference := none }) ∧
          u.store = s.store.setEntry n e2 ∧ (grown → s.watched u m.tube) ∧
          (e.measured.axial = m.measured.axial → l = t.entries) ∧
          (e.measured.axial ≠ m.measured.axial → l = l1 ++ n :: l2 ∧ t.entries.erase n = l1 ++ l2 ∧
            (∀ j ∈ l1, ∀ f, u.store.entry j = some f → e2.before f = false) ∧
            ∀ j, l2.head? = some j → ∃ f, u.store.entry j = some f ∧ e2.before f = true) ∧
          (¬ grown → u.tube m.tube = some { t with entries := l }) ∧
          (grown → u.tube m.tube = some
            (Tube.evaluated { t with entries := l } s.map.params.plugLimit u.store)))) ∧
    ((∀ j ∈ t.entries, ∀ f, s.store.entry j = some f → f.freq = m.freq →
        s.map.params.mergeWindow < apart f.measured.axial m.measured.axial) →
      ∀ made : Entry, made =
        { tube := m.tube, freq := m.freq, measured := m.measured, sightings := 1, firstPass := m.pass,
          status := .new, primary := none, secondary := none, resolution := none, outcome := none,
          reference := none, holder := none } →
      (t.entries.length < 12 →
        (s.store.free.toList = [] → u.tube m.tube = some { t with truncated := true } ∧ u.store = s.store ∧
          u.notices.told .pool 0) ∧
        (∀ n rest, s.store.free.toList = n :: rest → ∃ l1 l2 : List Nat,
          u.store.free.toList = rest ∧ s.watched u m.tube ∧
          u.store.warnArmed = decide (s.map.params.poolLevel < u.store.free.count) ∧
          (s.store.warnArmed = true → u.store.warnArmed = false → u.notices.told .pool 0) ∧
          u.store.slot n = { issue := ((s.store.slot n).issue + 1) % 256, content := some made } ∧
          (∀ j, j ≠ n → u.store.slot j = s.store.slot j) ∧ u.seats = s.seats ∧ t.entries = l1 ++ l2 ∧
          (∀ j ∈ l1, ∀ f, u.store.entry j = some f → made.before f = false) ∧
          (∀ j, l2.head? = some j → ∃ f, u.store.entry j = some f ∧ made.before f = true) ∧
          u.tube m.tube = some { t with entries := l1 ++ n :: l2 })) ∧
      (12 ≤ t.entries.length →
        ((∀ j ∈ t.entries, ∀ f, s.store.entry j = some f → f.status = .new → m.measured.depth ≤ f.measured.depth) →
          u.tube m.tube = some { t with truncated := true } ∧ u.store = s.store ∧ u.seats = s.seats) ∧
        ∀ (n : Nat) (e : Entry) (a b : List Nat), t.entries = a ++ n :: b → t.entries.Nodup →
          s.store.entry n = some e → e.status = .new → e.holder = none →
          e.measured.depth < m.measured.depth →
          (∀ j ∈ a, ∀ f, s.store.entry j = some f → f.status = .new → e.measured.depth < f.measured.depth) →
          (∀ j ∈ b, ∀ f, s.store.entry j = some f → f.status = .new → e.measured.depth ≤ f.measured.depth) →
          ∃ (k : Nat) (rest l1 l2 : List Nat), s.store.free.toList ++ [n] = k :: rest ∧
            u.store.free.toList = rest ∧ s.watched u m.tube ∧
            u.store.warnArmed = decide (s.map.params.poolLevel < u.store.free.count) ∧
            (s.store.warnArmed = true → u.store.warnArmed = false → u.notices.told .pool 0) ∧
            (s.store.free.count = s.map.params.poolLevel → u.notices.told .pool 0) ∧
            (s.store.free.count ≠ s.map.params.poolLevel →
              ¬ (s.store.warnArmed = true ∧ u.store.warnArmed = false) →
              ∀ x ∈ u.notices.pending, x.cls = .pool → x ∈ s.notices.pending) ∧
            u.store.slot k = { issue := ((s.store.slot k).issue + 1) % 256, content := some made } ∧
            (k ≠ n → u.store.slot n = { issue := (s.store.slot n).issue, content := none }) ∧
            (∀ j, j ≠ n → j ≠ k → u.store.slot j = s.store.slot j) ∧ u.seats = s.seats ∧ a ++ b = l1 ++ l2 ∧
            (∀ j ∈ l1, ∀ f, u.store.entry j = some f → made.before f = false) ∧
            (∀ j, l2.head? = some j → ∃ f, u.store.entry j = some f ∧ made.before f = true) ∧
            u.tube m.tube = some { t with entries := l1 ++ k :: l2, truncated := true }))

/-! ## The walker -/

/-- The walker's choice (R66, R72, R77), one examined position (R73, R74, R72, R78), and the claim request's answer
(R75, R76). That WALKER_CHOICE while a seek runs or nobody waits, WALKER_EXAMINE while a request is outstanding, and
CLAIM_REQUEST without one change nothing is log 1. -/
def Obligations.WalkerSeeks : Prop :=
  ∀ s : State, s.held = false →
    (s.walker.seek ≠ none ∨ (∀ n, s.walker.waiting.get n = false) → exec .walkerChoice s = .next s) ∧
    (∀ n : Fin 8, s.walker.seek = none → s.walker.waiting.get n = true →
      (∀ m : Fin 8, s.walker.waiting.get m = true → m ≠ n →
        (s.chan m).config.priority < (s.chan n).config.priority ∨
        ((s.chan m).config.priority = (s.chan n).config.priority ∧ n < m)) →
      ((s.chan n).config.window.size = 0 → (s.chan n).state = .seeking → exec .walkerChoice s = .next { s with
        chans := s.chans.set n { s.chan n with state := .idle, exhausted := true }
        walker := { s.walker with waiting := s.walker.waiting.set n false }
        notices := s.notices.post .exhausted n.val }) ∧
      (0 < (s.chan n).config.window.size → ∃ start : Nat,
        (s.walker.cursors.get n = none → start = 0) ∧
        (∀ p, s.walker.cursors.get n = some p →
          start = (walkIndex (s.chan n).config p + 1) % (s.chan n).config.window.size) ∧
        exec .walkerChoice s = .next { s with walker := { s.walker with
          waiting := s.walker.waiting.set n false
          seek := some { chan := n, size := (s.chan n).config.window.size, start, index := start, examined := 0,
                         renew := false, request := none } } })) ∧
    ∀ k : Seek, s.walker.seek = some k →
      (∀ x, k.request = some x → exec .walkerExamine s = .next s) ∧
      (k.request = none → exec .claimRequest s = .next s) ∧
      (((k.index + 1) % k.size ≠ k.start → s.walkOn k = { s with walker := { s.walker with
          seek := some
            { k with index := (k.index + 1) % k.size, examined := min (k.examined + 1) 4294967295,
                     request := none } } }) ∧
        ((k.index + 1) % k.size = k.start → k.renew = true → s.walkOn k = { s with walker := { s.walker with
          seek := some
            { k with index := k.start, examined := min (k.examined + 1) 4294967295, request := none,
                     renew := false } } }) ∧
        ((k.index + 1) % k.size = k.start → k.renew = false → (s.chan k.chan).state = .seeking →
          s.walkOn k = { s with
            chans := s.chans.set k.chan { s.chan k.chan with state := .idle, exhausted := true }
            walker := { s.walker with seek := none }
            notices := s.notices.post .exhausted k.chan.val })) ∧
      (∀ (p : Pos) (c : Config) (passes : Prop), k.request = none → c = (s.chan k.chan).config →
        p = walkPos c k.index →
        (passes ↔ ∃ (i : Nat) (t : Tube), s.map.at p = some i ∧ s.tube i = some t ∧
          (∀ (r : Fin 8) (x : Rect), c.keepouts.get r = true → s.walker.keepouts.get r = some x →
            x.holds p = false) ∧
          c.mix.getLsbD ((if t.planned then 4 else 0) +
            (if c.pattern.getLsbD (8 * (t.pos.row % 8) + t.pos.col % 8) then 2 else 0) +
            (if c.zones.getLsbD t.zone then 1 else 0)) = true ∧
          ((t.state = .untested ∧ c.states.untested = true) ∨ (t.state = .retest ∧ c.states.retest = true)) ∧
          t.claim = none ∧
          ∀ (m : Fin 8) (j : Claim), (s.chan m).claim = some j → j.face = c.face →
            s.walker.clearance < j.pos.distance p) →
        (passes → exec .walkerExamine s =
          .next { s with walker := { s.walker with seek := some { k with request := some p } } }) ∧
        (¬ passes → exec .walkerExamine s = .next (s.walkOn k))) ∧
      ∀ (p : Pos) (i : Nat) (u : Tube), k.request = some p → s.map.at p = some i → s.tube i = some u →
        (∀ reason : Status, s.claimReason k.chan u = some reason → exec .claimRequest s = .next (s.walkOn k)) ∧
        (s.claimReason k.chan u = none → ∃ (t : State) (j : Claim) (timer : StallTimer),
          exec .claimRequest s = .next t ∧
          j = { tube := i, pos := u.pos, face := (s.chan k.chan).config.face, pass := min (u.passes + 1) 15,
                prior := u.state, farEnd := false, dataGap := false } ∧
          t.tube i = some { u with state := .claimed, claim := some k.chan } ∧
          (∀ l, l ≠ i → t.tube l = s.tube l) ∧ s.watched t i ∧ s.completes t ∧
          timer = (s.chan k.chan).timer.load (s.chan k.chan).config s.clock ∧
          t = { s with
            map := { s.map with tubes := t.map.tubes, census := t.map.census, armed := t.map.armed }
            notices := t.notices
            chans := s.chans.set k.chan
              { s.chan k.chan with state := .assigned, claim := some j, lastCount := none, timer }
            txs := s.txs.set k.chan ((s.txs.get k.chan).enqueue { kind := .assign, echo := j.echo })
            walker := { s.walker with cursors := s.walker.cursors.set k.chan (some p), seek := none } })

/-- The walk order (R67, R69, R70): each of the N positions of a window carries one walk index of 0 to N − 1, each index
one position; the line and the place along it by the major axis, the start corner and the serpentine setting. -/
def Obligations.WalkVisitsOnce : Prop :=
  ∀ (c : Config) (w : Rect), w = c.window →
    w.size = (w.rowHi + 1 - w.rowLo) * (w.colHi + 1 - w.colLo) ∧
    (∀ i, i < w.size → w.holds (walkPos c i) = true ∧ walkIndex c (walkPos c i) = i) ∧
    (∀ p, w.holds p = true → walkIndex c p < w.size ∧ walkPos c (walkIndex c p) = p) ∧
    ∀ (i line place : Nat) (down right : Bool), i < w.size →
      (down = true ↔ c.startCorner = .topLeft ∨ c.startCorner = .topRight) →
      (right = true ↔ c.startCorner = .topLeft ∨ c.startCorner = .bottomLeft) →
      (c.majorAxis = .row → line = i / (w.colHi + 1 - w.colLo) → place = i % (w.colHi + 1 - w.colLo) →
        (walkPos c i).row = (if down then w.rowLo + line else w.rowHi - line) ∧
        (walkPos c i).col =
          (if (right != (c.serpentine && line % 2 == 1)) then w.colLo + place else w.colHi - place)) ∧
      (c.majorAxis = .column → line = i / (w.rowHi + 1 - w.rowLo) → place = i % (w.rowHi + 1 - w.rowLo) →
        (walkPos c i).col = (if right then w.colLo + line else w.colHi - line) ∧
        (walkPos c i).row =
          (if (down != (c.serpentine && line % 2 == 1)) then w.rowLo + place else w.rowHi - place))

/-! ## Promises every step keeps -/

/-- R190 is kept by every step, from any state that meets it: at most 32 notices, no two the same, none of a class at
level 0. -/
def Obligations.StepKeepsNotices : Prop :=
  ∀ s t : State, s.notices.sound → step s = .next t → t.notices.sound

/-- R121 is kept by every step: while the latch is set every channel is OFF or HALTED, and a step with the latch set
enters no ASSIGN message into any transmitter. -/
def Obligations.StepKeepsInterlock : Prop :=
  ∀ s t : State, step s = .next t →
    (s.interlocked → t.interlocked) ∧
    (s.interlock.latch = true → ∀ (n : Fin 8) (m : Message), m.kind = .assign →
      (t.txs.get n).sending = some m ∨ m ∈ (t.txs.get n).waiting →
      (s.txs.get n).sending = some m ∨ m ∈ (s.txs.get n).waiting)

/-- R18 is kept by every step: the census kept up to date is the one counted afresh, whose counts are the numbers of
tubes in each state, of planned tubes and of planned tubes in no terminal state, and sum to the number of tubes. -/
def Obligations.StepKeepsCensus : Prop :=
  (∀ s t : State, s.censusTrue → step s = .next t → t.censusTrue) ∧
  ∀ l : List Tube,
    (∀ x : TubeState, (censusOf l).count x = (l.filter (fun t => decide (t.state = x))).length) ∧
    (censusOf l).planned = (l.filter Tube.planned).length ∧
    (censusOf l).plannedOpen = (l.filter (fun t => t.planned && !t.state.terminal)).length ∧
    (censusOf l).total = l.length

/-- R142 is kept by every step: the free list holds each free entry once and no entry in use, of 16,384 entries. -/
def Obligations.StepKeepsPool : Prop :=
  ∀ s t : State, s.store.conserved → step s = .next t → t.store.conserved

/-- Every step keeps the canonical form of the two addressed arrays (log 18), and the bounds of the report queues, the
error counts and the transmitters (R84, R93, R99). -/
def Obligations.StepKeepsForms : Prop :=
  ∀ s t : State, step s = .next t → (s.canonical → t.canonical) ∧ (s.bounded → t.bounded)

/-- State.reset meets every promise that the steps keep. -/
def Obligations.ResetMeetsPromises : Prop :=
  State.reset.notices.sound ∧ State.reset.interlocked ∧ State.reset.censusTrue ∧ State.reset.store.conserved ∧
  State.reset.canonical ∧ State.reset.bounded ∧
  (∀ f : FreeList, f.fresh ≤ 16384 → f.toList.length = f.count) ∧ State.reset.store.free.count = 16384

end Claims
end

