-- ==== Sys2Proof/Laws/Bodies.lean ====
section
/-! SUPPORT. The bytes of a body at their places: `field` walks a list written out byte by byte, and the pieces of 11.4
whose bytes depend on a case are said once. -/

namespace Sys2Proof.Machine

@[simp] theorem field_succ (x : Byte) (l : List Byte) (start len : Nat) :
    field (x :: l) (start + 1) len = field l start len := rfl

@[simp] theorem field_one (x : Byte) (l : List Byte) : field (x :: l) 0 1 = x.toNat := by simp [field, bytesNat]

@[simp] theorem field_two (x y : Byte) (l : List Byte) :
    field (x :: y :: l) 0 2 = x.toNat * 256 + y.toNat := by simp [field, bytesNat]

@[simp] theorem field_three (x y z : Byte) (l : List Byte) :
    field (x :: y :: z :: l) 0 3 = (x.toNat * 256 + y.toNat) * 256 + z.toNat := by simp [field, bytesNat]

@[simp] theorem field_four (w x y z : Byte) (l : List Byte) :
    field (w :: x :: y :: z :: l) 0 4 = ((w.toNat * 256 + x.toNat) * 256 + y.toNat) * 256 + z.toNat := by
  simp [field, bytesNat]

/-- A field that lies behind the first of two parts lies in the second. -/
theorem field_append_right (a b : List Byte) (start len m : Nat) (h : a.length = m) (hm : m ≤ start) :
    field (a ++ b) start len = field b (start - m) len := by
  subst h
  simp [field, List.drop_append, List.drop_eq_nil_of_le hm]

/-- A field that ends within the first of two parts lies in it. -/
theorem field_append_left (a b : List Byte) (start len m : Nat) (h : a.length = m) (hm : start + len ≤ m) :
    field (a ++ b) start len = field a start len := by
  subst h
  simp only [field]
  rw [List.drop_append_of_le_length (by omega), List.take_append_of_le_length (by simp; omega)]

/-- A set of eight flags, read back bit by bit from its byte. -/
theorem flagsNat_testBit (v : Eight Bool) (k : Fin 8) : (flagsNat v.toList % 256).testBit k.val = v.get k := by
  obtain ⟨a, b, c, d, e, f, g, h⟩ := v
  revert a b c d e f g h k
  decide

/-- A link's error flags or enables, read back bit by bit from their byte. -/
theorem linkFlags_testBit (v : LinkFlags) (k : Fin 8) :
    (flagsNat v.toList % 256).testBit k.val = v.toList.getD k.val false := by
  obtain ⟨a, b, c, d, e, f, g, h⟩ := v
  revert a b c d e f g h k
  decide

/-- The two bytes of a call (11.4). -/
theorem callBody_bytes (c : Option Call) : ∃ x y : Byte, callBody c = [x, y] ∧
    (c = none → x.toNat = 0 ∧ y.toNat = 255) ∧
    (∀ d, c = some (.depth d) → x.toNat = 1 ∧ y.toNat = d % 256) ∧
    ∀ z, c = some z → (∀ d, z ≠ .depth d) → x.toNat = z.code ∧ y.toNat = 255 := by
  rcases c with _ | c
  · exact ⟨_, _, rfl, by simp, by simp, by simp⟩
  · cases c <;> refine ⟨_, _, rfl, by simp, by simp [Call.depth?, Call.code], ?_⟩ <;> rintro z ⟨⟩ h
    all_goals first | exact absurd rfl (h _) | exact ⟨rfl, rfl⟩

/-- The two bytes of a final outcome (11.4). -/
theorem outcomeBody_bytes (c : Option FinalOutcome) : ∃ x y : Byte, outcomeBody c = [x, y] ∧
    (c = none → x.toNat = 0 ∧ y.toNat = 255) ∧
    (∀ d, c = some (.depth d) → x.toNat = 1 ∧ y.toNat = d % 256) ∧
    (c = some .nonQuantifiable → x.toNat = 2 ∧ y.toNat = 255) := by
  rcases c with _ | _ | _ <;> exact ⟨_, _, rfl, by simp, by simp, by simp⟩

/-- The two bytes of a signed number, modulo 65,536. -/
theorem signed2_bytes (i : Int) :
    ∃ x y : Byte, signed2 i = [x, y] ∧ ((x.toNat * 256 + y.toNat : Nat) : Int) = i % 65536 := by
  refine ⟨_, _, rfl, ?_⟩
  simp only [BitVec.toNat_ofNat]
  generalize hk : (i % 65536).toNat = k
  have : 0 ≤ i % 65536 ∧ i % 65536 < 65536 := by omega
  omega

/-- A frequency's curve takes its 27 bytes whatever it holds (11.4). -/
theorem freqBody_length (f : FreqSettings) : (freqBody f).length = 27 := by simp [freqBody, byte1, byte2]

/-- A seat takes its six bytes whether it holds an entry or not (11.4). -/
theorem seatBody_length (clock : Nat) (x : Seat) : (seatBody clock x).length = 6 := by
  unfold seatBody
  split <;> simp [byte1, byte2, EntryRef.bytes]

/-- The seek in progress takes its ten bytes whether there is one or not (11.4). -/
theorem seekBody_length (position : Seek → Pos) (k : Option Seek) : (seekBody position k).length = 10 := by
  cases k <;> rfl

end Sys2Proof.Machine
end

