-- ==== Sys2Proof/Laws/Sparse.lean ====
section
/-! SUPPORT. The sparse lists of the position directory and the pool: a read after a write, and the canonical form
that every write keeps (log 18); the free list as a queue. -/

namespace Sys2Proof.Machine

variable {α : Type}

/-! ## Reads after writes -/

theorem sparseGet_put (d : α) (m : List (Nat × α)) (n k : Nat) (v : α) :
    sparseGet d (sparsePut m n v) k = if n = k then v else sparseGet d m k := by
  induction m with
  | nil => simp [sparsePut, sparseGet]
  | cons a t ih =>
    obtain ⟨j, w⟩ := a
    simp only [sparsePut]
    split
    · simp [sparseGet]
    · split
      · rename_i h1 h2
        subst h2
        simp only [sparseGet]
        split <;> rfl
      · rename_i h1 h2
        simp only [sparseGet, ih]
        by_cases hj : j = k
        · have : n ≠ k := fun h => h2 (h.trans hj.symm)
          simp [hj, this]
        · simp [hj]

theorem sparseGet_erase (d : α) (m : List (Nat × α)) (n k : Nat) :
    sparseGet d (sparseErase m n) k = if n = k then d else sparseGet d m k := by
  induction m with
  | nil => simp [sparseErase, sparseGet]
  | cons a t ih =>
    obtain ⟨j, w⟩ := a
    simp only [sparseErase, List.filter_cons] at ih ⊢
    by_cases hj : j = n
    · subst hj
      simp only [ne_eq, not_true_eq_false, decide_false, Bool.false_eq_true, if_false, ih, sparseGet]
      split <;> simp_all
    · simp only [ne_eq, hj, not_false_eq_true, decide_true, if_true, sparseGet, ih]
      by_cases hk : j = k
      · have : n ≠ k := fun h => hj (hk.trans h.symm)
        simp [hk, this]
      · simp [hk]

/-- A write is read back at its key and nowhere else. -/
theorem sparseGet_set [DecidableEq α] (d : α) (m : List (Nat × α)) (n k : Nat) (v : α) :
    sparseGet d (sparseSet d m n v) k = if n = k then v else sparseGet d m k := by
  unfold sparseSet
  split
  · rename_i h
    rw [sparseGet_erase, h]
  · exact sparseGet_put d m n k v

/-! ## The canonical form -/

theorem sparseWf_cons [DecidableEq α] (d : α) (a : Nat × α) (t : List (Nat × α)) :
    sparseWf d (a :: t) = true ↔ a.2 ≠ d ∧ (∀ b ∈ t.head?, a.1 < b.1) ∧ sparseWf d t = true := by
  cases t with
  | nil => simp [sparseWf]
  | cons b t => simp [sparseWf, and_assoc]

/-- In the canonical form every key of the tail lies above the head's. -/
theorem sparseWf_above [DecidableEq α] (d : α) (a : Nat × α) (t : List (Nat × α))
    (h : sparseWf d (a :: t) = true) : ∀ b ∈ t, a.1 < b.1 := by
  induction t generalizing a with
  | nil => simp
  | cons c t ih =>
    obtain ⟨-, hac, ht⟩ := (sparseWf_cons d a (c :: t)).1 h
    intro b hb
    have hc : a.1 < c.1 := hac c (by simp)
    rcases List.mem_cons.1 hb with rfl | hb
    · exact hc
    · exact hc.trans (ih c ht b hb)

theorem sparseWf_of_above [DecidableEq α] (d : α) (a : Nat × α) (t : List (Nat × α)) (hd : a.2 ≠ d)
    (ha : ∀ b ∈ t, a.1 < b.1) (ht : sparseWf d t = true) : sparseWf d (a :: t) = true :=
  (sparseWf_cons d a t).2 ⟨hd, fun b hb => ha b (List.mem_of_mem_head? hb), ht⟩

theorem sparsePut_keys (m : List (Nat × α)) (n : Nat) (v : α) : ∀ b ∈ sparsePut m n v, b.1 = n ∨ b ∈ m := by
  induction m with
  | nil => simp [sparsePut]
  | cons a t ih =>
    obtain ⟨j, w⟩ := a
    intro b hb
    simp only [sparsePut] at hb
    split at hb
    · rcases List.mem_cons.1 hb with rfl | hb
      · exact .inl rfl
      · exact .inr hb
    · split at hb
      · rcases List.mem_cons.1 hb with rfl | hb
        · exact .inl rfl
        · exact .inr (List.mem_cons_of_mem _ hb)
      · rcases List.mem_cons.1 hb with rfl | hb
        · exact .inr (by simp)
        · rcases ih b hb with h | h
          · exact .inl h
          · exact .inr (List.mem_cons_of_mem _ h)

theorem sparsePut_wf [DecidableEq α] (d : α) (m : List (Nat × α)) (n : Nat) (v : α) (hv : v ≠ d)
    (h : sparseWf d m = true) : sparseWf d (sparsePut m n v) = true := by
  induction m with
  | nil => simpa [sparsePut, sparseWf] using hv
  | cons a t ih =>
    obtain ⟨j, w⟩ := a
    have above := sparseWf_above d _ _ h
    obtain ⟨hw, -, ht⟩ := (sparseWf_cons d (j, w) t).1 h
    simp only [sparsePut]
    split
    · rename_i hn
      refine sparseWf_of_above d _ _ hv (fun b hb => ?_) h
      rcases List.mem_cons.1 hb with rfl | hb
      · exact hn
      · exact hn.trans (above b hb)
    · split
      · rename_i _ hn
        exact sparseWf_of_above d _ _ hv (fun b hb => hn ▸ above b hb) ht
      · rename_i h1 h2
        refine sparseWf_of_above d _ _ hw (fun b hb => ?_) (ih ht)
        rcases sparsePut_keys t n v b hb with hb | hb
        · simp only [hb]; omega
        · exact above b hb

theorem sparseErase_wf [DecidableEq α] (d : α) (m : List (Nat × α)) (n : Nat) (h : sparseWf d m = true) :
    sparseWf d (sparseErase m n) = true := by
  induction m with
  | nil => rfl
  | cons a t ih =>
    have above := sparseWf_above d _ _ h
    obtain ⟨hw, -, ht⟩ := (sparseWf_cons d a t).1 h
    simp only [sparseErase, List.filter_cons] at ih ⊢
    split
    · exact sparseWf_of_above d _ _ hw (fun b hb => above b (List.mem_filter.1 hb).1) (ih ht)
    · exact ih ht

/-- Every write keeps the canonical form. -/
theorem sparseSet_wf [DecidableEq α] (d : α) (m : List (Nat × α)) (n : Nat) (v : α) (h : sparseWf d m = true) :
    sparseWf d (sparseSet d m n v) = true := by
  unfold sparseSet
  split
  · exact sparseErase_wf d m n h
  · rename_i hv
    exact sparsePut_wf d m n v hv h

/-! ## The pool -/

theorem Store.slot_setSlot (st : Store) (n k : Nat) (p : PoolSlot) :
    (st.setSlot n p).slot k = if n = k then p else st.slot k := by
  simp [Store.slot, Store.setSlot, sparseGet_set]

theorem Store.entry_setSlot (st : Store) (n k : Nat) (p : PoolSlot) :
    (st.setSlot n p).entry k = if n = k then p.content else st.entry k := by
  simp only [Store.entry, Store.slot_setSlot]
  split <;> rfl

theorem Store.entry_setEntry (st : Store) (n k : Nat) (e : Entry) :
    (st.setEntry n e).entry k = if n = k then some e else st.entry k := by
  simp [Store.setEntry, Store.entry_setSlot]

@[simp] theorem Store.free_setSlot (st : Store) (n : Nat) (p : PoolSlot) : (st.setSlot n p).free = st.free := rfl

@[simp] theorem Store.free_setEntry (st : Store) (n : Nat) (e : Entry) : (st.setEntry n e).free = st.free := rfl

@[simp] theorem Store.warnArmed_setEntry (st : Store) (n : Nat) (e : Entry) :
    (st.setEntry n e).warnArmed = st.warnArmed := rfl

theorem Store.setSlot_canonical (st : Store) (n : Nat) (p : PoolSlot) (h : sparseWf emptySlot st.pool = true) :
    sparseWf emptySlot (st.setSlot n p).pool = true :=
  sparseSet_wf emptySlot st.pool n p h

/-! ## The free list -/

/-- A take gives the head of the list and leaves the rest (R142). -/
theorem FreeList.take_toList (f : FreeList) (n : Nat) (g : FreeList) (h : f.take = some (n, g)) :
    f.toList = n :: g.toList := by
  unfold FreeList.take at h
  split at h
  · rename_i hf
    simp only [Option.some.injEq, Prod.mk.injEq] at h
    obtain ⟨rfl, rfl⟩ := h
    have : Config.poolSize - f.fresh = (Config.poolSize - (f.fresh + 1)) + 1 := by omega
    simp [FreeList.toList, this, List.range'_succ]
  · rename_i hf
    cases hr : f.returned with
    | nil => simp [hr] at h
    | cons a t =>
      simp only [hr, Option.some.injEq, Prod.mk.injEq] at h
      obtain ⟨rfl, rfl⟩ := h
      have : Config.poolSize - f.fresh = 0 := by omega
      simp [FreeList.toList, this, hr]

/-- Nothing is taken exactly from an empty list. -/
theorem FreeList.take_none (f : FreeList) : f.take = none ↔ f.toList = [] := by
  unfold FreeList.take
  split
  · rename_i hf
    have : Config.poolSize - f.fresh ≠ 0 := by omega
    simp [FreeList.toList, this]
  · rename_i hf
    have : Config.poolSize - f.fresh = 0 := by omega
    cases hr : f.returned <;> simp [FreeList.toList, this, hr]

/-- A put goes to the tail (R142). -/
@[simp] theorem FreeList.put_toList (f : FreeList) (n : Nat) : (f.put n).toList = f.toList ++ [n] := by
  simp [FreeList.toList, FreeList.put]

/-- The free count is the length of the list (R142). -/
theorem FreeList.count_eq (f : FreeList) : f.count = f.toList.length := by
  simp [FreeList.count, FreeList.toList]

end Sys2Proof.Machine
end

