-- ==== Sys2Proof/Laws/State.lean ====
section
/-! SUPPORT. One lemma for each field of the state under each plain update, and the places of a bank. -/

namespace Sys2Proof

variable {α : Type}

@[simp] theorem Eight.get_fill (x : α) (i : Fin 8) : (Eight.fill x).get i = x := by
  match i with
  | 0 | 1 | 2 | 3 | 4 | 5 | 6 | 7 => rfl

@[simp] theorem Eight.get_map {β : Type} (f : α → β) (v : Eight α) (i : Fin 8) : (v.map f).get i = f (v.get i) := by
  match i with
  | 0 | 1 | 2 | 3 | 4 | 5 | 6 | 7 => rfl

@[simp] theorem Eight.get_set (v : Eight α) (i j : Fin 8) (x : α) :
    (v.set i x).get j = if i = j then x else v.get j := by
  match i, j with
  | 0, 0 | 0, 1 | 0, 2 | 0, 3 | 0, 4 | 0, 5 | 0, 6 | 0, 7 => rfl
  | 1, 0 | 1, 1 | 1, 2 | 1, 3 | 1, 4 | 1, 5 | 1, 6 | 1, 7 => rfl
  | 2, 0 | 2, 1 | 2, 2 | 2, 3 | 2, 4 | 2, 5 | 2, 6 | 2, 7 => rfl
  | 3, 0 | 3, 1 | 3, 2 | 3, 3 | 3, 4 | 3, 5 | 3, 6 | 3, 7 => rfl
  | 4, 0 | 4, 1 | 4, 2 | 4, 3 | 4, 4 | 4, 5 | 4, 6 | 4, 7 => rfl
  | 5, 0 | 5, 1 | 5, 2 | 5, 3 | 5, 4 | 5, 5 | 5, 6 | 5, 7 => rfl
  | 6, 0 | 6, 1 | 6, 2 | 6, 3 | 6, 4 | 6, 5 | 6, 6 | 6, 7 => rfl
  | 7, 0 | 7, 1 | 7, 2 | 7, 3 | 7, 4 | 7, 5 | 7, 6 | 7, 7 => rfl

/-- Two banks with the same places are the same bank. -/
theorem Eight.ext_get {v w : Eight α} (h : ∀ i : Fin 8, v.get i = w.get i) : v = w := by
  obtain ⟨a0, a1, a2, a3, a4, a5, a6, a7⟩ := v
  obtain ⟨b0, b1, b2, b3, b4, b5, b6, b7⟩ := w
  have h0 := h 0; have h1 := h 1; have h2 := h 2; have h3 := h 3
  have h4 := h 4; have h5 := h 5; have h6 := h 6; have h7 := h 7
  simp only [Eight.get] at h0 h1 h2 h3 h4 h5 h6 h7
  subst h0 h1 h2 h3 h4 h5 h6 h7
  rfl

/-- Something holds in a place of the list exactly when it holds at some number. -/
theorem Eight.any_toList (v : Eight α) (p : α → Bool) : v.toList.any p = true ↔ ∃ i : Fin 8, p (v.get i) = true := by
  constructor
  · intro h
    simp only [Eight.toList, List.any_cons, List.any_nil, Bool.or_false, Bool.or_eq_true] at h
    rcases h with h | h | h | h | h | h | h | h
    · exact ⟨0, h⟩
    · exact ⟨1, h⟩
    · exact ⟨2, h⟩
    · exact ⟨3, h⟩
    · exact ⟨4, h⟩
    · exact ⟨5, h⟩
    · exact ⟨6, h⟩
    · exact ⟨7, h⟩
  · rintro ⟨i, h⟩
    simp only [Eight.toList, List.any_cons, List.any_nil, Bool.or_false, Bool.or_eq_true]
    match i with
    | 0 | 1 | 2 | 3 | 4 | 5 | 6 | 7 => simp only [Eight.get] at h; simp [h]

@[simp] theorem Four.get_fill (x : α) (i : Fin 4) : (Four.fill x).get i = x := by
  match i with
  | 0 | 1 | 2 | 3 => rfl

@[simp] theorem Four.get_set (v : Four α) (i j : Fin 4) (x : α) :
    (v.set i x).get j = if i = j then x else v.get j := by
  match i, j with
  | 0, 0 | 0, 1 | 0, 2 | 0, 3 | 1, 0 | 1, 1 | 1, 2 | 1, 3 => rfl
  | 2, 0 | 2, 1 | 2, 2 | 2, 3 | 3, 0 | 3, 1 | 3, 2 | 3, 3 => rfl

end Sys2Proof

namespace Sys2Proof.Machine

@[simp] theorem State.post_clock (s : State) (c : NoticeClass) (k : Nat) : (s.post c k).clock = s.clock := rfl
@[simp] theorem State.post_held (s : State) (c : NoticeClass) (k : Nat) : (s.post c k).held = s.held := rfl
@[simp] theorem State.post_cancels (s : State) (c : NoticeClass) (k : Nat) : (s.post c k).cancels = s.cancels := rfl
@[simp] theorem State.post_map (s : State) (c : NoticeClass) (k : Nat) : (s.post c k).map = s.map := rfl
@[simp] theorem State.post_store (s : State) (c : NoticeClass) (k : Nat) : (s.post c k).store = s.store := rfl
@[simp] theorem State.post_freqs (s : State) (c : NoticeClass) (k : Nat) : (s.post c k).freqs = s.freqs := rfl
@[simp] theorem State.post_seats (s : State) (c : NoticeClass) (k : Nat) : (s.post c k).seats = s.seats := rfl
@[simp] theorem State.post_chans (s : State) (c : NoticeClass) (k : Nat) : (s.post c k).chans = s.chans := rfl
@[simp] theorem State.post_walker (s : State) (c : NoticeClass) (k : Nat) : (s.post c k).walker = s.walker := rfl
@[simp] theorem State.post_links (s : State) (c : NoticeClass) (k : Nat) : (s.post c k).links = s.links := rfl
@[simp] theorem State.post_txs (s : State) (c : NoticeClass) (k : Nat) : (s.post c k).txs = s.txs := rfl
@[simp] theorem State.post_engine (s : State) (c : NoticeClass) (k : Nat) : (s.post c k).engine = s.engine := rfl
@[simp] theorem State.post_hand (s : State) (c : NoticeClass) (k : Nat) : (s.post c k).hand = s.hand := rfl
@[simp] theorem State.post_interlock (s : State) (c : NoticeClass) (k : Nat) :
    (s.post c k).interlock =
      s.interlock := rfl
@[simp] theorem State.post_port (s : State) (c : NoticeClass) (k : Nat) : (s.post c k).port = s.port := rfl
@[simp] theorem State.post_notices (s : State) (c : NoticeClass) (k : Nat) :
    (s.post c k).notices =
      s.notices.post c k := rfl
@[simp] theorem State.post_pending (s : State) (c : NoticeClass) (k : Nat) : (s.post c k).pending = s.pending := rfl

@[simp] theorem State.respond_clock (s : State) (b : Byte) (c : Status) (l : List Byte) :
    (s.respond b c l).clock =
      s.clock := rfl
@[simp] theorem State.respond_held (s : State) (b : Byte) (c : Status) (l : List Byte) :
    (s.respond b c l).held =
      s.held := rfl
@[simp] theorem State.respond_cancels (s : State) (b : Byte) (c : Status) (l : List Byte) :
    (s.respond b c l).cancels =
      s.cancels := rfl
@[simp] theorem State.respond_map (s : State) (b : Byte) (c : Status) (l : List Byte) :
    (s.respond b c l).map =
      s.map := rfl
@[simp] theorem State.respond_store (s : State) (b : Byte) (c : Status) (l : List Byte) :
    (s.respond b c l).store =
      s.store := rfl
@[simp] theorem State.respond_freqs (s : State) (b : Byte) (c : Status) (l : List Byte) :
    (s.respond b c l).freqs =
      s.freqs := rfl
@[simp] theorem State.respond_seats (s : State) (b : Byte) (c : Status) (l : List Byte) :
    (s.respond b c l).seats =
      s.seats := rfl
@[simp] theorem State.respond_chans (s : State) (b : Byte) (c : Status) (l : List Byte) :
    (s.respond b c l).chans =
      s.chans := rfl
@[simp] theorem State.respond_walker (s : State) (b : Byte) (c : Status) (l : List Byte) :
    (s.respond b c l).walker =
      s.walker := rfl
@[simp] theorem State.respond_links (s : State) (b : Byte) (c : Status) (l : List Byte) :
    (s.respond b c l).links =
      s.links := rfl
@[simp] theorem State.respond_txs (s : State) (b : Byte) (c : Status) (l : List Byte) :
    (s.respond b c l).txs =
      s.txs := rfl
@[simp] theorem State.respond_engine (s : State) (b : Byte) (c : Status) (l : List Byte) :
    (s.respond b c l).engine =
      s.engine := rfl
@[simp] theorem State.respond_hand (s : State) (b : Byte) (c : Status) (l : List Byte) :
    (s.respond b c l).hand =
      s.hand := rfl
@[simp] theorem State.respond_interlock (s : State) (b : Byte) (c : Status) (l : List Byte) :
    (s.respond b c l).interlock =
      s.interlock := rfl
@[simp] theorem State.respond_port (s : State) (b : Byte) (c : Status) (l : List Byte) :
    (s.respond b c l).port =
      { s.port with mode := .responding, received := [], work := none, response := some { command := b, status := c, overrun := s.port.overrun, body := l } } := rfl
@[simp] theorem State.respond_notices (s : State) (b : Byte) (c : Status) (l : List Byte) :
    (s.respond b c l).notices =
      s.notices := rfl
@[simp] theorem State.respond_pending (s : State) (b : Byte) (c : Status) (l : List Byte) :
    (s.respond b c l).pending =
      s.pending := rfl

@[simp] theorem State.answer_clock (s : State) (c : Command) (k : Status) (l : List Byte) :
    (s.answer c k l).clock =
      s.clock := rfl
@[simp] theorem State.answer_held (s : State) (c : Command) (k : Status) (l : List Byte) :
    (s.answer c k l).held =
      s.held := rfl
@[simp] theorem State.answer_cancels (s : State) (c : Command) (k : Status) (l : List Byte) :
    (s.answer c k l).cancels =
      s.cancels := rfl
@[simp] theorem State.answer_map (s : State) (c : Command) (k : Status) (l : List Byte) :
    (s.answer c k l).map =
      s.map := rfl
@[simp] theorem State.answer_store (s : State) (c : Command) (k : Status) (l : List Byte) :
    (s.answer c k l).store =
      s.store := rfl
@[simp] theorem State.answer_freqs (s : State) (c : Command) (k : Status) (l : List Byte) :
    (s.answer c k l).freqs =
      s.freqs := rfl
@[simp] theorem State.answer_seats (s : State) (c : Command) (k : Status) (l : List Byte) :
    (s.answer c k l).seats =
      s.seats := rfl
@[simp] theorem State.answer_chans (s : State) (c : Command) (k : Status) (l : List Byte) :
    (s.answer c k l).chans =
      s.chans := rfl
@[simp] theorem State.answer_walker (s : State) (c : Command) (k : Status) (l : List Byte) :
    (s.answer c k l).walker =
      s.walker := rfl
@[simp] theorem State.answer_links (s : State) (c : Command) (k : Status) (l : List Byte) :
    (s.answer c k l).links =
      s.links := rfl
@[simp] theorem State.answer_txs (s : State) (c : Command) (k : Status) (l : List Byte) :
    (s.answer c k l).txs =
      s.txs := rfl
@[simp] theorem State.answer_engine (s : State) (c : Command) (k : Status) (l : List Byte) :
    (s.answer c k l).engine =
      s.engine := rfl
@[simp] theorem State.answer_hand (s : State) (c : Command) (k : Status) (l : List Byte) :
    (s.answer c k l).hand =
      s.hand := rfl
@[simp] theorem State.answer_interlock (s : State) (c : Command) (k : Status) (l : List Byte) :
    (s.answer c k l).interlock =
      s.interlock := rfl
@[simp] theorem State.answer_port (s : State) (c : Command) (k : Status) (l : List Byte) :
    (s.answer c k l).port =
      { s.port with mode := .responding, received := [], work := none, miso := [0#8], response := some { command := c.code, status := k, overrun := s.port.overrun, body := l } } := rfl
@[simp] theorem State.answer_notices (s : State) (c : Command) (k : Status) (l : List Byte) :
    (s.answer c k l).notices =
      s.notices := rfl
@[simp] theorem State.answer_pending (s : State) (c : Command) (k : Status) (l : List Byte) :
    (s.answer c k l).pending =
      s.pending := rfl

@[simp] theorem State.begin_clock (s : State) (w : Work) : (s.begin w).clock = s.clock := rfl
@[simp] theorem State.begin_held (s : State) (w : Work) : (s.begin w).held = s.held := rfl
@[simp] theorem State.begin_cancels (s : State) (w : Work) : (s.begin w).cancels = s.cancels := rfl
@[simp] theorem State.begin_map (s : State) (w : Work) : (s.begin w).map = s.map := rfl
@[simp] theorem State.begin_store (s : State) (w : Work) : (s.begin w).store = s.store := rfl
@[simp] theorem State.begin_freqs (s : State) (w : Work) : (s.begin w).freqs = s.freqs := rfl
@[simp] theorem State.begin_seats (s : State) (w : Work) : (s.begin w).seats = s.seats := rfl
@[simp] theorem State.begin_chans (s : State) (w : Work) : (s.begin w).chans = s.chans := rfl
@[simp] theorem State.begin_walker (s : State) (w : Work) : (s.begin w).walker = s.walker := rfl
@[simp] theorem State.begin_links (s : State) (w : Work) : (s.begin w).links = s.links := rfl
@[simp] theorem State.begin_txs (s : State) (w : Work) : (s.begin w).txs = s.txs := rfl
@[simp] theorem State.begin_engine (s : State) (w : Work) : (s.begin w).engine = s.engine := rfl
@[simp] theorem State.begin_hand (s : State) (w : Work) : (s.begin w).hand = s.hand := rfl
@[simp] theorem State.begin_interlock (s : State) (w : Work) : (s.begin w).interlock = s.interlock := rfl
@[simp] theorem State.begin_port (s : State) (w : Work) :
    (s.begin w).port =
      { s.port with mode := .executing, work := some w } := rfl
@[simp] theorem State.begin_notices (s : State) (w : Work) : (s.begin w).notices = s.notices := rfl
@[simp] theorem State.begin_pending (s : State) (w : Work) : (s.begin w).pending = s.pending := rfl

@[simp] theorem State.overrun_clock (s : State) : (s.overrun).clock = s.clock := rfl
@[simp] theorem State.overrun_held (s : State) : (s.overrun).held = s.held := rfl
@[simp] theorem State.overrun_cancels (s : State) : (s.overrun).cancels = s.cancels := rfl
@[simp] theorem State.overrun_map (s : State) : (s.overrun).map = s.map := rfl
@[simp] theorem State.overrun_store (s : State) : (s.overrun).store = s.store := rfl
@[simp] theorem State.overrun_freqs (s : State) : (s.overrun).freqs = s.freqs := rfl
@[simp] theorem State.overrun_seats (s : State) : (s.overrun).seats = s.seats := rfl
@[simp] theorem State.overrun_chans (s : State) : (s.overrun).chans = s.chans := rfl
@[simp] theorem State.overrun_walker (s : State) : (s.overrun).walker = s.walker := rfl
@[simp] theorem State.overrun_links (s : State) : (s.overrun).links = s.links := rfl
@[simp] theorem State.overrun_txs (s : State) : (s.overrun).txs = s.txs := rfl
@[simp] theorem State.overrun_engine (s : State) : (s.overrun).engine = s.engine := rfl
@[simp] theorem State.overrun_hand (s : State) : (s.overrun).hand = s.hand := rfl
@[simp] theorem State.overrun_interlock (s : State) : (s.overrun).interlock = s.interlock := rfl
@[simp] theorem State.overrun_port (s : State) : (s.overrun).port = s.port.setOverrun := rfl
@[simp] theorem State.overrun_notices (s : State) : (s.overrun).notices = s.notices := rfl
@[simp] theorem State.overrun_pending (s : State) : (s.overrun).pending = s.pending := rfl

@[simp] theorem State.setChan_clock (s : State) (n : Fin 8) (c : Channel) : (s.setChan n c).clock = s.clock := rfl
@[simp] theorem State.setChan_held (s : State) (n : Fin 8) (c : Channel) : (s.setChan n c).held = s.held := rfl
@[simp] theorem State.setChan_cancels (s : State) (n : Fin 8) (c : Channel) :
    (s.setChan n c).cancels =
      s.cancels := rfl
@[simp] theorem State.setChan_map (s : State) (n : Fin 8) (c : Channel) : (s.setChan n c).map = s.map := rfl
@[simp] theorem State.setChan_store (s : State) (n : Fin 8) (c : Channel) : (s.setChan n c).store = s.store := rfl
@[simp] theorem State.setChan_freqs (s : State) (n : Fin 8) (c : Channel) : (s.setChan n c).freqs = s.freqs := rfl
@[simp] theorem State.setChan_seats (s : State) (n : Fin 8) (c : Channel) : (s.setChan n c).seats = s.seats := rfl
@[simp] theorem State.setChan_chans (s : State) (n : Fin 8) (c : Channel) :
    (s.setChan n c).chans =
      s.chans.set n c := rfl
@[simp] theorem State.setChan_walker (s : State) (n : Fin 8) (c : Channel) : (s.setChan n c).walker = s.walker := rfl
@[simp] theorem State.setChan_links (s : State) (n : Fin 8) (c : Channel) : (s.setChan n c).links = s.links := rfl
@[simp] theorem State.setChan_txs (s : State) (n : Fin 8) (c : Channel) : (s.setChan n c).txs = s.txs := rfl
@[simp] theorem State.setChan_engine (s : State) (n : Fin 8) (c : Channel) : (s.setChan n c).engine = s.engine := rfl
@[simp] theorem State.setChan_hand (s : State) (n : Fin 8) (c : Channel) : (s.setChan n c).hand = s.hand := rfl
@[simp] theorem State.setChan_interlock (s : State) (n : Fin 8) (c : Channel) :
    (s.setChan n c).interlock =
      s.interlock := rfl
@[simp] theorem State.setChan_port (s : State) (n : Fin 8) (c : Channel) : (s.setChan n c).port = s.port := rfl
@[simp] theorem State.setChan_notices (s : State) (n : Fin 8) (c : Channel) :
    (s.setChan n c).notices =
      s.notices := rfl
@[simp] theorem State.setChan_pending (s : State) (n : Fin 8) (c : Channel) :
    (s.setChan n c).pending =
      s.pending := rfl

@[simp] theorem State.setLinkRx_clock (s : State) (n : Fin 8) (l : Link) : (s.setLinkRx n l).clock = s.clock := rfl
@[simp] theorem State.setLinkRx_held (s : State) (n : Fin 8) (l : Link) : (s.setLinkRx n l).held = s.held := rfl
@[simp] theorem State.setLinkRx_cancels (s : State) (n : Fin 8) (l : Link) :
    (s.setLinkRx n l).cancels =
      s.cancels := rfl
@[simp] theorem State.setLinkRx_map (s : State) (n : Fin 8) (l : Link) : (s.setLinkRx n l).map = s.map := rfl
@[simp] theorem State.setLinkRx_store (s : State) (n : Fin 8) (l : Link) : (s.setLinkRx n l).store = s.store := rfl
@[simp] theorem State.setLinkRx_freqs (s : State) (n : Fin 8) (l : Link) : (s.setLinkRx n l).freqs = s.freqs := rfl
@[simp] theorem State.setLinkRx_seats (s : State) (n : Fin 8) (l : Link) : (s.setLinkRx n l).seats = s.seats := rfl
@[simp] theorem State.setLinkRx_chans (s : State) (n : Fin 8) (l : Link) : (s.setLinkRx n l).chans = s.chans := rfl
@[simp] theorem State.setLinkRx_walker (s : State) (n : Fin 8) (l : Link) : (s.setLinkRx n l).walker = s.walker := rfl
@[simp] theorem State.setLinkRx_links (s : State) (n : Fin 8) (l : Link) :
    (s.setLinkRx n l).links =
      s.links.set n l := rfl
@[simp] theorem State.setLinkRx_txs (s : State) (n : Fin 8) (l : Link) : (s.setLinkRx n l).txs = s.txs := rfl
@[simp] theorem State.setLinkRx_engine (s : State) (n : Fin 8) (l : Link) : (s.setLinkRx n l).engine = s.engine := rfl
@[simp] theorem State.setLinkRx_hand (s : State) (n : Fin 8) (l : Link) : (s.setLinkRx n l).hand = s.hand := rfl
@[simp] theorem State.setLinkRx_interlock (s : State) (n : Fin 8) (l : Link) :
    (s.setLinkRx n l).interlock =
      s.interlock := rfl
@[simp] theorem State.setLinkRx_port (s : State) (n : Fin 8) (l : Link) : (s.setLinkRx n l).port = s.port := rfl
@[simp] theorem State.setLinkRx_notices (s : State) (n : Fin 8) (l : Link) :
    (s.setLinkRx n l).notices =
      s.notices := rfl
@[simp] theorem State.setLinkRx_pending (s : State) (n : Fin 8) (l : Link) :
    (s.setLinkRx n l).pending =
      s.pending := rfl

@[simp] theorem State.send_clock (s : State) (n : Fin 8) (k : MessageKind) (e : Echo) :
    (s.send n k e).clock =
      s.clock := rfl
@[simp] theorem State.send_held (s : State) (n : Fin 8) (k : MessageKind) (e : Echo) :
    (s.send n k e).held =
      s.held := rfl
@[simp] theorem State.send_cancels (s : State) (n : Fin 8) (k : MessageKind) (e : Echo) :
    (s.send n k e).cancels =
      s.cancels := rfl
@[simp] theorem State.send_map (s : State) (n : Fin 8) (k : MessageKind) (e : Echo) :
    (s.send n k e).map =
      s.map := rfl
@[simp] theorem State.send_store (s : State) (n : Fin 8) (k : MessageKind) (e : Echo) :
    (s.send n k e).store =
      s.store := rfl
@[simp] theorem State.send_freqs (s : State) (n : Fin 8) (k : MessageKind) (e : Echo) :
    (s.send n k e).freqs =
      s.freqs := rfl
@[simp] theorem State.send_seats (s : State) (n : Fin 8) (k : MessageKind) (e : Echo) :
    (s.send n k e).seats =
      s.seats := rfl
@[simp] theorem State.send_chans (s : State) (n : Fin 8) (k : MessageKind) (e : Echo) :
    (s.send n k e).chans =
      s.chans := rfl
@[simp] theorem State.send_walker (s : State) (n : Fin 8) (k : MessageKind) (e : Echo) :
    (s.send n k e).walker =
      s.walker := rfl
@[simp] theorem State.send_links (s : State) (n : Fin 8) (k : MessageKind) (e : Echo) :
    (s.send n k e).links =
      s.links := rfl
@[simp] theorem State.send_txs (s : State) (n : Fin 8) (k : MessageKind) (e : Echo) :
    (s.send n k e).txs =
      s.txs.set n ((s.txs.get n).enqueue { kind := k, echo := e }) := rfl
@[simp] theorem State.send_engine (s : State) (n : Fin 8) (k : MessageKind) (e : Echo) :
    (s.send n k e).engine =
      s.engine := rfl
@[simp] theorem State.send_hand (s : State) (n : Fin 8) (k : MessageKind) (e : Echo) :
    (s.send n k e).hand =
      s.hand := rfl
@[simp] theorem State.send_interlock (s : State) (n : Fin 8) (k : MessageKind) (e : Echo) :
    (s.send n k e).interlock =
      s.interlock := rfl
@[simp] theorem State.send_port (s : State) (n : Fin 8) (k : MessageKind) (e : Echo) :
    (s.send n k e).port =
      s.port := rfl
@[simp] theorem State.send_notices (s : State) (n : Fin 8) (k : MessageKind) (e : Echo) :
    (s.send n k e).notices =
      s.notices := rfl
@[simp] theorem State.send_pending (s : State) (n : Fin 8) (k : MessageKind) (e : Echo) :
    (s.send n k e).pending =
      s.pending := rfl

@[simp] theorem State.abandonSeek_clock (s : State) (n : Fin 8) : (s.abandonSeek n).clock = s.clock := rfl
@[simp] theorem State.abandonSeek_held (s : State) (n : Fin 8) : (s.abandonSeek n).held = s.held := rfl
@[simp] theorem State.abandonSeek_cancels (s : State) (n : Fin 8) : (s.abandonSeek n).cancels = s.cancels := rfl
@[simp] theorem State.abandonSeek_map (s : State) (n : Fin 8) : (s.abandonSeek n).map = s.map := rfl
@[simp] theorem State.abandonSeek_store (s : State) (n : Fin 8) : (s.abandonSeek n).store = s.store := rfl
@[simp] theorem State.abandonSeek_freqs (s : State) (n : Fin 8) : (s.abandonSeek n).freqs = s.freqs := rfl
@[simp] theorem State.abandonSeek_seats (s : State) (n : Fin 8) : (s.abandonSeek n).seats = s.seats := rfl
@[simp] theorem State.abandonSeek_chans (s : State) (n : Fin 8) : (s.abandonSeek n).chans = s.chans := rfl
@[simp] theorem State.abandonSeek_walker (s : State) (n : Fin 8) :
    (s.abandonSeek n).walker =
      s.walker.abandon n := rfl
@[simp] theorem State.abandonSeek_links (s : State) (n : Fin 8) : (s.abandonSeek n).links = s.links := rfl
@[simp] theorem State.abandonSeek_txs (s : State) (n : Fin 8) : (s.abandonSeek n).txs = s.txs := rfl
@[simp] theorem State.abandonSeek_engine (s : State) (n : Fin 8) : (s.abandonSeek n).engine = s.engine := rfl
@[simp] theorem State.abandonSeek_hand (s : State) (n : Fin 8) : (s.abandonSeek n).hand = s.hand := rfl
@[simp] theorem State.abandonSeek_interlock (s : State) (n : Fin 8) : (s.abandonSeek n).interlock = s.interlock := rfl
@[simp] theorem State.abandonSeek_port (s : State) (n : Fin 8) : (s.abandonSeek n).port = s.port := rfl
@[simp] theorem State.abandonSeek_notices (s : State) (n : Fin 8) : (s.abandonSeek n).notices = s.notices := rfl
@[simp] theorem State.abandonSeek_pending (s : State) (n : Fin 8) : (s.abandonSeek n).pending = s.pending := rfl

@[simp] theorem State.freeSeat_clock (s : State) (k : Fin 4) : (s.freeSeat k).clock = s.clock := rfl
@[simp] theorem State.freeSeat_held (s : State) (k : Fin 4) : (s.freeSeat k).held = s.held := rfl
@[simp] theorem State.freeSeat_cancels (s : State) (k : Fin 4) : (s.freeSeat k).cancels = s.cancels := rfl
@[simp] theorem State.freeSeat_map (s : State) (k : Fin 4) : (s.freeSeat k).map = s.map := rfl
@[simp] theorem State.freeSeat_store (s : State) (k : Fin 4) : (s.freeSeat k).store = s.store := rfl
@[simp] theorem State.freeSeat_freqs (s : State) (k : Fin 4) : (s.freeSeat k).freqs = s.freqs := rfl
@[simp] theorem State.freeSeat_seats (s : State) (k : Fin 4) :
    (s.freeSeat k).seats =
      s.seats.set k { held := none, expiry := none } := rfl
@[simp] theorem State.freeSeat_chans (s : State) (k : Fin 4) : (s.freeSeat k).chans = s.chans := rfl
@[simp] theorem State.freeSeat_walker (s : State) (k : Fin 4) : (s.freeSeat k).walker = s.walker := rfl
@[simp] theorem State.freeSeat_links (s : State) (k : Fin 4) : (s.freeSeat k).links = s.links := rfl
@[simp] theorem State.freeSeat_txs (s : State) (k : Fin 4) : (s.freeSeat k).txs = s.txs := rfl
@[simp] theorem State.freeSeat_engine (s : State) (k : Fin 4) : (s.freeSeat k).engine = s.engine := rfl
@[simp] theorem State.freeSeat_hand (s : State) (k : Fin 4) : (s.freeSeat k).hand = s.hand := rfl
@[simp] theorem State.freeSeat_interlock (s : State) (k : Fin 4) : (s.freeSeat k).interlock = s.interlock := rfl
@[simp] theorem State.freeSeat_port (s : State) (k : Fin 4) : (s.freeSeat k).port = s.port := rfl
@[simp] theorem State.freeSeat_notices (s : State) (k : Fin 4) : (s.freeSeat k).notices = s.notices := rfl
@[simp] theorem State.freeSeat_pending (s : State) (k : Fin 4) : (s.freeSeat k).pending = s.pending := rfl

@[simp] theorem State.resetCursor_clock (s : State) (n : Fin 8) : (s.resetCursor n).clock = s.clock := rfl
@[simp] theorem State.resetCursor_held (s : State) (n : Fin 8) : (s.resetCursor n).held = s.held := rfl
@[simp] theorem State.resetCursor_cancels (s : State) (n : Fin 8) : (s.resetCursor n).cancels = s.cancels := rfl
@[simp] theorem State.resetCursor_map (s : State) (n : Fin 8) : (s.resetCursor n).map = s.map := rfl
@[simp] theorem State.resetCursor_store (s : State) (n : Fin 8) : (s.resetCursor n).store = s.store := rfl
@[simp] theorem State.resetCursor_freqs (s : State) (n : Fin 8) : (s.resetCursor n).freqs = s.freqs := rfl
@[simp] theorem State.resetCursor_seats (s : State) (n : Fin 8) : (s.resetCursor n).seats = s.seats := rfl
@[simp] theorem State.resetCursor_chans (s : State) (n : Fin 8) : (s.resetCursor n).chans = s.chans := rfl
@[simp] theorem State.resetCursor_walker (s : State) (n : Fin 8) :
    (s.resetCursor n).walker =
      { s.walker with cursors := s.walker.cursors.set n none } := rfl
@[simp] theorem State.resetCursor_links (s : State) (n : Fin 8) : (s.resetCursor n).links = s.links := rfl
@[simp] theorem State.resetCursor_txs (s : State) (n : Fin 8) : (s.resetCursor n).txs = s.txs := rfl
@[simp] theorem State.resetCursor_engine (s : State) (n : Fin 8) : (s.resetCursor n).engine = s.engine := rfl
@[simp] theorem State.resetCursor_hand (s : State) (n : Fin 8) : (s.resetCursor n).hand = s.hand := rfl
@[simp] theorem State.resetCursor_interlock (s : State) (n : Fin 8) : (s.resetCursor n).interlock = s.interlock := rfl
@[simp] theorem State.resetCursor_port (s : State) (n : Fin 8) : (s.resetCursor n).port = s.port := rfl
@[simp] theorem State.resetCursor_notices (s : State) (n : Fin 8) : (s.resetCursor n).notices = s.notices := rfl
@[simp] theorem State.resetCursor_pending (s : State) (n : Fin 8) : (s.resetCursor n).pending = s.pending := rfl

@[simp] theorem State.chan_setChan (s : State) (n m : Fin 8) (c : Channel) :
    (s.setChan n c).chan m = if n = m then c else s.chan m := by
  simp [State.chan]

@[simp] theorem State.link_setLinkRx (s : State) (n m : Fin 8) (l : Link) :
    (s.setLinkRx n l).link m = if n = m then l else s.link m := by
  simp [State.link]

@[simp] theorem State.reply_clock (s : State) (b : Byte) (c : Status) (l : List Byte) :
    (s.reply b c l).clock =
      s.clock := rfl
@[simp] theorem State.reply_held (s : State) (b : Byte) (c : Status) (l : List Byte) :
    (s.reply b c l).held =
      s.held := rfl
@[simp] theorem State.reply_cancels (s : State) (b : Byte) (c : Status) (l : List Byte) :
    (s.reply b c l).cancels =
      s.cancels := rfl
@[simp] theorem State.reply_map (s : State) (b : Byte) (c : Status) (l : List Byte) :
    (s.reply b c l).map =
      s.map := rfl
@[simp] theorem State.reply_store (s : State) (b : Byte) (c : Status) (l : List Byte) :
    (s.reply b c l).store =
      s.store := rfl
@[simp] theorem State.reply_freqs (s : State) (b : Byte) (c : Status) (l : List Byte) :
    (s.reply b c l).freqs =
      s.freqs := rfl
@[simp] theorem State.reply_seats (s : State) (b : Byte) (c : Status) (l : List Byte) :
    (s.reply b c l).seats =
      s.seats := rfl
@[simp] theorem State.reply_chans (s : State) (b : Byte) (c : Status) (l : List Byte) :
    (s.reply b c l).chans =
      s.chans := rfl
@[simp] theorem State.reply_walker (s : State) (b : Byte) (c : Status) (l : List Byte) :
    (s.reply b c l).walker =
      s.walker := rfl
@[simp] theorem State.reply_links (s : State) (b : Byte) (c : Status) (l : List Byte) :
    (s.reply b c l).links =
      s.links := rfl
@[simp] theorem State.reply_txs (s : State) (b : Byte) (c : Status) (l : List Byte) :
    (s.reply b c l).txs =
      s.txs := rfl
@[simp] theorem State.reply_engine (s : State) (b : Byte) (c : Status) (l : List Byte) :
    (s.reply b c l).engine =
      s.engine := rfl
@[simp] theorem State.reply_hand (s : State) (b : Byte) (c : Status) (l : List Byte) :
    (s.reply b c l).hand =
      s.hand := rfl
@[simp] theorem State.reply_interlock (s : State) (b : Byte) (c : Status) (l : List Byte) :
    (s.reply b c l).interlock =
      s.interlock := rfl
@[simp] theorem State.reply_port (s : State) (b : Byte) (c : Status) (l : List Byte) :
    (s.reply b c l).port =
      { s.port with mode := .responding, received := [], work := none, miso := [0#8], response := some { command := b, status := c, overrun := s.port.overrun, body := l } } := rfl
@[simp] theorem State.reply_notices (s : State) (b : Byte) (c : Status) (l : List Byte) :
    (s.reply b c l).notices =
      s.notices := rfl
@[simp] theorem State.reply_pending (s : State) (b : Byte) (c : Status) (l : List Byte) :
    (s.reply b c l).pending =
      s.pending := rfl

@[simp] theorem State.complete_clock (s : State) (c : Command) (k : Status) (l : List Byte) :
    (s.complete c k l).clock =
      s.clock := rfl
@[simp] theorem State.complete_held (s : State) (c : Command) (k : Status) (l : List Byte) :
    (s.complete c k l).held =
      s.held := rfl
@[simp] theorem State.complete_cancels (s : State) (c : Command) (k : Status) (l : List Byte) :
    (s.complete c k l).cancels =
      s.cancels := rfl
@[simp] theorem State.complete_map (s : State) (c : Command) (k : Status) (l : List Byte) :
    (s.complete c k l).map =
      s.map := rfl
@[simp] theorem State.complete_store (s : State) (c : Command) (k : Status) (l : List Byte) :
    (s.complete c k l).store =
      s.store := rfl
@[simp] theorem State.complete_freqs (s : State) (c : Command) (k : Status) (l : List Byte) :
    (s.complete c k l).freqs =
      s.freqs := rfl
@[simp] theorem State.complete_seats (s : State) (c : Command) (k : Status) (l : List Byte) :
    (s.complete c k l).seats =
      s.seats := rfl
@[simp] theorem State.complete_chans (s : State) (c : Command) (k : Status) (l : List Byte) :
    (s.complete c k l).chans =
      s.chans := rfl
@[simp] theorem State.complete_walker (s : State) (c : Command) (k : Status) (l : List Byte) :
    (s.complete c k l).walker =
      s.walker := rfl
@[simp] theorem State.complete_links (s : State) (c : Command) (k : Status) (l : List Byte) :
    (s.complete c k l).links =
      s.links := rfl
@[simp] theorem State.complete_txs (s : State) (c : Command) (k : Status) (l : List Byte) :
    (s.complete c k l).txs =
      s.txs := rfl
@[simp] theorem State.complete_engine (s : State) (c : Command) (k : Status) (l : List Byte) :
    (s.complete c k l).engine =
      s.engine := rfl
@[simp] theorem State.complete_hand (s : State) (c : Command) (k : Status) (l : List Byte) :
    (s.complete c k l).hand =
      s.hand := rfl
@[simp] theorem State.complete_interlock (s : State) (c : Command) (k : Status) (l : List Byte) :
    (s.complete c k l).interlock =
      s.interlock := rfl
@[simp] theorem State.complete_port (s : State) (c : Command) (k : Status) (l : List Byte) :
    (s.complete c k l).port =
      { s.port with mode := .responding, received := [], work := none, response := some { command := c.code, status := k, overrun := s.port.overrun, body := l } } := rfl
@[simp] theorem State.complete_notices (s : State) (c : Command) (k : Status) (l : List Byte) :
    (s.complete c k l).notices =
      s.notices := rfl
@[simp] theorem State.complete_pending (s : State) (c : Command) (k : Status) (l : List Byte) :
    (s.complete c k l).pending =
      s.pending := rfl

@[simp] theorem State.start_clock (s : State) (w : Work) : (s.start w).clock = s.clock := rfl
@[simp] theorem State.start_held (s : State) (w : Work) : (s.start w).held = s.held := rfl
@[simp] theorem State.start_cancels (s : State) (w : Work) : (s.start w).cancels = s.cancels := rfl
@[simp] theorem State.start_map (s : State) (w : Work) : (s.start w).map = s.map := rfl
@[simp] theorem State.start_store (s : State) (w : Work) : (s.start w).store = s.store := rfl
@[simp] theorem State.start_freqs (s : State) (w : Work) : (s.start w).freqs = s.freqs := rfl
@[simp] theorem State.start_seats (s : State) (w : Work) : (s.start w).seats = s.seats := rfl
@[simp] theorem State.start_chans (s : State) (w : Work) : (s.start w).chans = s.chans := rfl
@[simp] theorem State.start_walker (s : State) (w : Work) : (s.start w).walker = s.walker := rfl
@[simp] theorem State.start_links (s : State) (w : Work) : (s.start w).links = s.links := rfl
@[simp] theorem State.start_txs (s : State) (w : Work) : (s.start w).txs = s.txs := rfl
@[simp] theorem State.start_engine (s : State) (w : Work) : (s.start w).engine = s.engine := rfl
@[simp] theorem State.start_hand (s : State) (w : Work) : (s.start w).hand = s.hand := rfl
@[simp] theorem State.start_interlock (s : State) (w : Work) : (s.start w).interlock = s.interlock := rfl
@[simp] theorem State.start_port (s : State) (w : Work) :
    (s.start w).port =
      { s.port with mode := .executing, received := [], work := some w, miso := [0#8] } := rfl
@[simp] theorem State.start_notices (s : State) (w : Work) : (s.start w).notices = s.notices := rfl
@[simp] theorem State.start_pending (s : State) (w : Work) : (s.start w).pending = s.pending := rfl

end Sys2Proof.Machine
end

