-- ==== Sys2Proof/Laws/Ops.lean ====
section
/-! SUPPORT. What each shared operation can do: the fields it may change (every other one stands), what it does to a
tube record, and that it reaches the notice unit by posts alone. -/

namespace Sys2Proof.Machine

/-- A property of the notice unit that every post keeps. -/
def KeptByPosts (P : NoticeUnit → Prop) : Prop := ∀ u c k, P u → P (NoticeUnit.post u c k)

variable {P : NoticeUnit → Prop}

/-! ## Watches -/

theorem State.watchSlot_frame (p : Pos) (s : State) (k : Fin 4) :
    s.watchSlot p k = { s with notices := (s.watchSlot p k).notices } := by
  unfold State.watchSlot
  split <;> rfl

theorem State.watchSlot_notices (hP : KeptByPosts P) (p : Pos) (s : State) (k : Fin 4) (h : P s.notices) :
    P (s.watchSlot p k).notices := by
  unfold State.watchSlot
  split
  · exact hP _ _ _ h
  · exact h

theorem State.postWatch_frame (s : State) (p : Pos) : s.postWatch p = { s with notices := (s.postWatch p).notices } := by
  simp only [State.postWatch, fourNumbers, List.foldl_cons, List.foldl_nil]
  rw [State.watchSlot_frame p _ 3, State.watchSlot_frame p _ 2, State.watchSlot_frame p _ 1,
    State.watchSlot_frame p s 0]

theorem State.postWatch_notices (hP : KeptByPosts P) (s : State) (p : Pos) (h : P s.notices) :
    P (s.postWatch p).notices := by
  simp only [State.postWatch, fourNumbers, List.foldl_cons, List.foldl_nil]
  exact State.watchSlot_notices hP _ _ _ (State.watchSlot_notices hP _ _ _ (State.watchSlot_notices hP _ _ _
    (State.watchSlot_notices hP _ _ _ h)))

/-! ## The completion check -/

theorem State.checkCompletion_frame (s : State) :
    s.checkCompletion = { s with
      map := { s.map with armed := s.checkCompletion.map.armed }, notices := s.checkCompletion.notices } := by
  unfold State.checkCompletion
  split
  · rfl
  · split
    · rfl
    · split <;> rfl

theorem State.checkCompletion_notices (hP : KeptByPosts P) (s : State) (h : P s.notices) :
    P s.checkCompletion.notices := by
  unfold State.checkCompletion
  split
  · exact h
  · split
    · exact h
    · split
      · exact hP _ _ _ h
      · exact h

theorem State.armCompletion_frame (s : State) :
    s.armCompletion = { s with
      map := { s.map with armed := s.armCompletion.map.armed }, notices := s.armCompletion.notices } := by
  unfold State.armCompletion
  rw [State.checkCompletion_frame]

theorem State.armCompletion_notices (hP : KeptByPosts P) (s : State) (h : P s.notices) : P s.armCompletion.notices :=
  State.checkCompletion_notices hP _ h

theorem State.completionAfter_frame (s : State) (old : Census) :
    s.completionAfter old = { s with
      map := { s.map with armed := (s.completionAfter old).map.armed },
      notices := (s.completionAfter old).notices } := by
  unfold State.completionAfter
  split
  · rfl
  · exact State.checkCompletion_frame s

theorem State.completionAfter_notices (hP : KeptByPosts P) (s : State) (old : Census) (h : P s.notices) :
    P (s.completionAfter old).notices := by
  unfold State.completionAfter
  split
  · exact h
  · exact State.checkCompletion_notices hP s h

/-! ## The seek condition and the candidates-changed signal -/

theorem State.testSeek_frame (s : State) (n : Fin 8) :
    s.testSeek n = { s with
      chans := (s.testSeek n).chans
      walker := { s.walker with waiting := (s.testSeek n).walker.waiting } } := by
  unfold State.testSeek
  dsimp only
  split <;> rfl

/-- The seek condition makes an IDLE channel SEEKING, and changes no other channel and no other field (R43). -/
theorem State.testSeek_chan (s : State) (n m : Fin 8) :
    (s.testSeek n).chan m =
      if n = m ∧ (s.chan m).state = .idle ∧ 0 < (s.chan m).config.priority ∧ (s.chan m).exhausted = false then
        { s.chan m with state := .seeking }
      else s.chan m := by
  unfold State.testSeek
  dsimp only
  by_cases hn : n = m
  · subst hn
    by_cases h : (s.chan n).state = .idle ∧ 0 < (s.chan n).config.priority ∧ (s.chan n).exhausted = false
    · rw [if_pos h, if_pos ⟨rfl, h⟩]; simp [State.chan]
    · simp [h]
  · split
    · simp [hn, State.chan]
    · simp [hn]

theorem State.candidatesAt_frame (s : State) (n : Fin 8) :
    s.candidatesAt n = { s with
      chans := (s.candidatesAt n).chans
      walker := { s.walker with
        waiting := (s.candidatesAt n).walker.waiting, seek := (s.candidatesAt n).walker.seek } } := by
  unfold State.candidatesAt
  cases s.walker.seek with
  | none =>
    dsimp only
    split
    · rw [State.testSeek_frame]; rfl
    · rfl
  | some k =>
    dsimp only
    split
    · split
      · rw [State.testSeek_frame]; rfl
      · rfl
    · split
      · rw [State.testSeek_frame]; rfl
      · rfl

theorem State.candidatesAt_chan (s : State) (n m : Fin 8) :
    (s.candidatesAt n).chan m = if n = m then (s.chan m).signalled else s.chan m := by
  have key : ∀ s1 : State, s1.chans = s.chans →
      (if (s1.chan n).exhausted then (s1.setChan n { s1.chan n with exhausted := false }).testSeek n else s1).chan m =
        if n = m then (s.chan m).signalled else s.chan m := by
    intro s1 h1
    have hc : ∀ k, s1.chan k = s.chan k := fun k => by simp [State.chan, h1]
    by_cases hn : n = m
    · subst hn
      simp only [hc, if_true, Channel.signalled]
      by_cases he : (s.chan n).exhausted = true
      · simp only [he, if_true, State.testSeek_chan, State.chan_setChan, true_and, and_true]
        split <;> simp_all
      · simp [he, hc]
    · simp only [hn, if_false]
      split
      · simp [State.testSeek_chan, hn, hc]
      · exact hc m
  unfold State.candidatesAt
  cases hs : s.walker.seek with
  | none => exact key s rfl
  | some k =>
    dsimp only
    split
    · exact key _ rfl
    · exact key s rfl

theorem State.candidatesChanged_frame (s : State) :
    s.candidatesChanged = { s with
      chans := s.candidatesChanged.chans
      walker := { s.walker with
        waiting := s.candidatesChanged.walker.waiting, seek := s.candidatesChanged.walker.seek } } := by
  have step : ∀ (l : List (Fin 8)) (s : State), l.foldl State.candidatesAt s = { s with
      chans := (l.foldl State.candidatesAt s).chans
      walker := { s.walker with
        waiting := (l.foldl State.candidatesAt s).walker.waiting
        seek := (l.foldl State.candidatesAt s).walker.seek } } := by
    intro l
    induction l with
    | nil => intro s; rfl
    | cons n t ih =>
      intro s
      rw [List.foldl_cons]
      generalize hg : s.candidatesAt n = s1 at *
      rw [State.candidatesAt_frame] at hg
      rw [ih s1]
      subst hg
      rfl
  exact step eightNumbers s

/-- The signal reaches every channel, and each is changed as `Channel.signalled` says (R37). -/
theorem State.candidatesChanged_chan (s : State) (m : Fin 8) : s.candidatesChanged.chan m = (s.chan m).signalled := by
  simp only [State.candidatesChanged, eightNumbers, List.foldl_cons, List.foldl_nil, State.candidatesAt_chan]
  match m with
  | 0 | 1 | 2 | 3 | 4 | 5 | 6 | 7 => simp

/-! ## A change of one tube record -/

theorem State.changeTube_none (s : State) (i : Nat) (f : Tube → Tube) (h : s.tube i = none) : s.changeTube i f = s := by
  simp [State.changeTube, h]

/-- What a change of a tube record may change. -/
theorem State.changeTube_frame (s : State) (i : Nat) (f : Tube → Tube) :
    s.changeTube i f = { s with
      map := { s.map with
        tubes := (s.changeTube i f).map.tubes
        census := (s.changeTube i f).map.census
        armed := (s.changeTube i f).map.armed }
      notices := (s.changeTube i f).notices
      chans := (s.changeTube i f).chans
      walker := { s.walker with
        waiting := (s.changeTube i f).walker.waiting, seek := (s.changeTube i f).walker.seek } } := by
  unfold State.changeTube
  split
  · rfl
  · rename_i old _
    have hp : ∀ (b : Bool) (u : State), (if b then u.post .blocked i else u) =
        { u with notices := (if b then u.post .blocked i else u).notices } := by
      intro b u; cases b <;> rfl
    have hc : ∀ (b : Bool) (u : State), (if b then u.candidatesChanged else u) = { u with
        chans := (if b then u.candidatesChanged else u).chans
        walker := { u.walker with
          waiting := (if b then u.candidatesChanged else u).walker.waiting
          seek := (if b then u.candidatesChanged else u).walker.seek } } := by
      intro b u
      cases b
      · rfl
      · exact State.candidatesChanged_frame u
    have hw : ∀ (b : Bool) (u : State) (p : Pos), (if b then u.postWatch p else u) =
        { u with notices := (if b then u.postWatch p else u).notices } := by
      intro b u p
      cases b
      · rfl
      · exact State.postWatch_frame u p
    dsimp only
    rw [hw, hc, State.completionAfter_frame, hp]
    rfl

theorem State.changeTube_notices (hP : KeptByPosts P) (s : State) (i : Nat) (f : Tube → Tube) (h : P s.notices) :
    P (s.changeTube i f).notices := by
  unfold State.changeTube
  split
  · exact h
  · rename_i old _
    dsimp only
    have h2 : ∀ (b : Bool) (u : State), P u.notices → P (if b then u.post .blocked i else u).notices := by
      intro b u hu
      cases b
      · exact hu
      · exact hP _ _ _ hu
    have h4 : ∀ (b : Bool) (u : State), P u.notices → P (if b then u.candidatesChanged else u).notices := by
      intro b u hu
      cases b
      · exact hu
      · rw [if_pos rfl, State.candidatesChanged_frame]; exact hu
    have h5 : ∀ (b : Bool) (u : State) (p : Pos), P u.notices → P (if b then u.postWatch p else u).notices := by
      intro b u p hu
      cases b
      · exact hu
      · exact State.postWatch_notices hP u p hu
    exact h5 _ _ _ (h4 _ _ (State.completionAfter_notices hP _ _ (h2 _ _ h)))

/-- The tube records after a change of record `i`: that record changed by `f`, every other one kept. -/
theorem State.changeTube_tubes (s : State) (i : Nat) (f : Tube → Tube) :
    (s.changeTube i f).map.tubes = s.map.tubes.modify i f := by
  unfold State.changeTube
  split
  · rename_i h
    rw [State.tube, List.getElem?_eq_none_iff] at h
    rw [List.modify_eq_self h]
  · rename_i old h
    have hp : ∀ (b : Bool) (u : State), (if b then u.post .blocked i else u).map = u.map := by
      intro b u; cases b <;> rfl
    have hc : ∀ (b : Bool) (u : State), (if b then u.candidatesChanged else u).map = u.map := by
      intro b u
      cases b
      · rfl
      · rw [if_pos rfl, State.candidatesChanged_frame]
    have hw : ∀ (b : Bool) (u : State) (p : Pos), (if b then u.postWatch p else u).map = u.map := by
      intro b u p
      cases b
      · rfl
      · rw [if_pos rfl, State.postWatch_frame]
    dsimp only
    rw [hw, hc, State.completionAfter_frame]
    dsimp only
    rw [hp]
    rw [State.tube] at h
    simp only [TubeMap.replace]
    refine List.ext_getElem? (fun j => ?_)
    rw [List.getElem?_set, List.getElem?_modify]
    by_cases hj : i = j
    · subst hj
      obtain ⟨hi, rfl⟩ := List.getElem?_eq_some_iff.1 h
      simp [hi]
    · simp [hj]

theorem State.changeTube_tube (s : State) (i j : Nat) (f : Tube → Tube) :
    (s.changeTube i f).tube j = if i = j then (s.tube j).map f else s.tube j := by
  rw [State.tube, State.changeTube_tubes, List.getElem?_modify, State.tube]
  split <;> simp

/-- A channel that a change of a tube record has reached: signalled or as it was (R37). -/
theorem State.changeTube_chan (s : State) (i : Nat) (f : Tube → Tube) (m : Fin 8) :
    (s.changeTube i f).chan m = s.chan m ∨ (s.changeTube i f).chan m = (s.chan m).signalled := by
  unfold State.changeTube
  split
  · exact .inl rfl
  · rename_i old _
    have hp : ∀ (b : Bool) (u : State), (if b then u.post .blocked i else u).chans = u.chans := by
      intro b u; cases b <;> rfl
    have hw : ∀ (b : Bool) (u : State) (p : Pos), (if b then u.postWatch p else u).chans = u.chans := by
      intro b u p
      cases b
      · rfl
      · rw [if_pos rfl, State.postWatch_frame]
    have hk : ∀ (u : State) (o : Census), (u.completionAfter o).chans = u.chans := by
      intro u o; rw [State.completionAfter_frame]
    dsimp only
    simp only [State.chan, hw]
    split
    · refine .inr ?_
      have := State.candidatesChanged_chan
      simp only [State.chan] at this
      rw [this, hk, hp]
    · exact .inl (by rw [hk, hp])

/-! ## Evaluation and changes of status -/

theorem State.evaluate_frame (s : State) (i : Nat) :
    s.evaluate i = { s with
      map := { s.map with
        tubes := (s.evaluate i).map.tubes, census := (s.evaluate i).map.census, armed := (s.evaluate i).map.armed }
      notices := (s.evaluate i).notices
      chans := (s.evaluate i).chans
      walker := { s.walker with waiting := (s.evaluate i).walker.waiting, seek := (s.evaluate i).walker.seek } } := by
  unfold State.evaluate
  split
  · rfl
  · dsimp only
    split
    · rw [State.changeTube_frame]; rfl
    · exact State.changeTube_frame _ _ _

theorem State.evaluate_notices (hP : KeptByPosts P) (s : State) (i : Nat) (h : P s.notices) :
    P (s.evaluate i).notices := by
  unfold State.evaluate
  split
  · exact h
  · dsimp only
    split
    · exact hP _ _ _ (State.changeTube_notices hP _ _ _ h)
    · exact State.changeTube_notices hP _ _ _ h

/-- The tube records after an evaluation of tube `i` (R31, R175). -/
theorem State.evaluate_tube (s : State) (i : Nat) (t : Tube) (ht : s.tube i = some t) (j : Nat) :
    (s.evaluate i).tube j =
      if i = j then some { t with
        worstFinal := worstFinalDepth ((s.store.listed t.entries).map Prod.snd)
        state :=
          if t.state.takesCalls then
            evaluationState t s.map.params.plugLimit ((s.store.listed t.entries).map Prod.snd)
          else t.state }
      else s.tube j := by
  have hpost : ∀ (b : Bool) (u : State), (if b then u.post .plugCall i else u).tube j = u.tube j := by
    intro b u; cases b <;> rfl
  unfold State.evaluate
  rw [ht]
  dsimp only
  rw [hpost, State.changeTube_tube]
  split
  · rename_i h
    subst h
    rw [ht]
    rfl
  · rfl

/-- An evaluation never makes a tube claimable, so it gives no candidates-changed signal (R31, R37). -/
theorem evaluationState_unclaimable (t : Tube) (limit : Nat) (l : List Entry) :
    (evaluationState t limit l).claimable = false := by
  unfold evaluationState
  split
  · rfl
  · split
    · split <;> rfl
    · rfl

theorem State.changeTube_quiet (s : State) (i : Nat) (f : Tube → Tube)
    (h : ∀ t, s.tube i = some t → t.state = (f t).state ∨ (f t).state.claimable = false) :
    (s.changeTube i f).chans = s.chans ∧ (s.changeTube i f).walker = s.walker := by
  unfold State.changeTube
  split
  · exact ⟨rfl, rfl⟩
  · rename_i old ho
    have hp : ∀ (b : Bool) (u : State), (if b then u.post .blocked i else u).chans = u.chans ∧
        (if b then u.post .blocked i else u).walker = u.walker := by
      intro b u; cases b <;> exact ⟨rfl, rfl⟩
    have hw : ∀ (b : Bool) (u : State) (p : Pos), (if b then u.postWatch p else u).chans = u.chans ∧
        (if b then u.postWatch p else u).walker = u.walker := by
      intro b u p
      cases b
      · exact ⟨rfl, rfl⟩
      · rw [if_pos rfl, State.postWatch_frame]; exact ⟨rfl, rfl⟩
    have hk : ∀ (u : State) (o : Census), (u.completionAfter o).chans = u.chans ∧
        (u.completionAfter o).walker = u.walker := by
      intro u o; rw [State.completionAfter_frame]; exact ⟨rfl, rfl⟩
    have hq : (decide (old.state ≠ (f old).state) && (f old).state.claimable) = false := by
      rcases h old ho with h | h <;> simp [h]
    dsimp only
    rw [(hw _ _ _).1, (hw _ _ _).2, hq, if_neg Bool.false_ne_true, (hk _ _).1, (hk _ _).2, (hp _ _).1, (hp _ _).2]
    exact ⟨rfl, rfl⟩

theorem State.evaluate_quiet (s : State) (i : Nat) :
    (s.evaluate i).chans = s.chans ∧ (s.evaluate i).walker = s.walker := by
  unfold State.evaluate
  split
  · exact ⟨rfl, rfl⟩
  · have hpost : ∀ (b : Bool) (u : State), (if b then u.post .plugCall i else u).chans = u.chans ∧
        (if b then u.post .plugCall i else u).walker = u.walker := by
      intro b u; cases b <;> exact ⟨rfl, rfl⟩
    rename_i t ht
    dsimp only
    rw [(hpost _ _).1, (hpost _ _).2]
    refine State.changeTube_quiet s i _ (fun t' ht' => ?_)
    rw [ht] at ht'
    cases ht'
    dsimp only
    split
    · exact .inr (evaluationState_unclaimable _ _ _)
    · exact .inl rfl

theorem State.watchTube_frame (s : State) (i : Nat) : s.watchTube i = { s with notices := (s.watchTube i).notices } := by
  unfold State.watchTube
  split
  · rfl
  · exact State.postWatch_frame _ _

theorem State.watchTube_notices (hP : KeptByPosts P) (s : State) (i : Nat) (h : P s.notices) :
    P (s.watchTube i).notices := by
  unfold State.watchTube
  split
  · exact h
  · exact State.postWatch_notices hP _ _ h

theorem State.changeStatus_frame (s : State) (n : Nat) (e : Entry) :
    s.changeStatus n e = { s with
      store := s.store.setEntry n e
      map := { s.map with
        tubes := (s.changeStatus n e).map.tubes
        census := (s.changeStatus n e).map.census
        armed := (s.changeStatus n e).map.armed }
      notices := (s.changeStatus n e).notices
      chans := (s.changeStatus n e).chans
      walker := { s.walker with
        waiting := (s.changeStatus n e).walker.waiting, seek := (s.changeStatus n e).walker.seek } } := by
  unfold State.changeStatus
  rw [State.watchTube_frame, State.evaluate_frame]

theorem State.changeStatus_notices (hP : KeptByPosts P) (s : State) (n : Nat) (e : Entry) (h : P s.notices) :
    P (s.changeStatus n e).notices :=
  State.watchTube_notices hP _ _ (State.evaluate_notices hP _ _ h)

theorem State.changeStatus_quiet (s : State) (n : Nat) (e : Entry) :
    (s.changeStatus n e).chans = s.chans ∧ (s.changeStatus n e).walker = s.walker := by
  unfold State.changeStatus
  rw [State.watchTube_frame]
  exact State.evaluate_quiet _ _

/-! ## Pool and retirement -/

theorem State.judgePool_frame (s : State) :
    s.judgePool = { s with
      store := { s.store with warnArmed := s.judgePool.store.warnArmed }, notices := s.judgePool.notices } := by
  unfold State.judgePool
  dsimp only
  split
  · rfl
  · split <;> rfl

theorem State.judgePool_notices (hP : KeptByPosts P) (s : State) (h : P s.notices) : P s.judgePool.notices := by
  unfold State.judgePool
  dsimp only
  split
  · exact hP _ _ _ h
  · split <;> exact h

theorem State.recycle_frame (s : State) (n : Nat) :
    s.recycle n = { s with store := (s.recycle n).store, notices := (s.recycle n).notices } := by
  unfold State.recycle
  dsimp only
  rw [State.judgePool_frame]

theorem State.recycle_store (s : State) (n : Nat) :
    (∀ k, (s.recycle n).store.slot k =
      if n = k then { issue := (s.store.slot n).issue, content := none } else s.store.slot k) ∧
    (s.recycle n).store.free.toList = s.store.free.toList ++ [n] := by
  unfold State.recycle
  dsimp only
  rw [State.judgePool_frame]
  exact ⟨fun k => Store.slot_setSlot s.store n k _, FreeList.put_toList _ _⟩

theorem State.recycle_notices (hP : KeptByPosts P) (s : State) (n : Nat) (h : P s.notices) : P (s.recycle n).notices :=
  State.judgePool_notices hP _ h

theorem State.retire_frame (s : State) (n : Nat) :
    s.retire n = { s with
      store := (s.retire n).store, seats := (s.retire n).seats, notices := (s.retire n).notices } := by
  unfold State.retire
  split
  · rfl
  · split
    · rw [State.recycle_frame]; rfl
    · rw [State.recycle_frame]

theorem State.retire_notices (hP : KeptByPosts P) (s : State) (n : Nat) (h : P s.notices) : P (s.retire n).notices := by
  unfold State.retire
  split
  · exact h
  · split
    · exact State.recycle_notices hP _ _ h
    · exact State.recycle_notices hP _ _ h

/-- The pool after a retirement: an entry in use is free with its issue number kept, and stands at the tail of the
free list; nothing else moves (R156). -/
theorem State.retire_store (s : State) (n : Nat) (e : Entry) (h : s.store.entry n = some e) :
    (∀ k, (s.retire n).store.slot k =
      if n = k then { issue := (s.store.slot n).issue, content := none } else s.store.slot k) ∧
    (s.retire n).store.free.toList = s.store.free.toList ++ [n] := by
  unfold State.retire
  rw [h]
  dsimp only
  split
  · exact State.recycle_store _ n
  · exact State.recycle_store s n

theorem State.retireList_frame (l : List Nat) (s : State) :
    l.foldl State.retire s = { s with
      store := (l.foldl State.retire s).store
      seats := (l.foldl State.retire s).seats
      notices := (l.foldl State.retire s).notices } := by
  induction l generalizing s with
  | nil => rfl
  | cons n t ih =>
    rw [List.foldl_cons, ih]
    rw [State.retire_frame s n]

theorem State.retireList_notices (hP : KeptByPosts P) (l : List Nat) (s : State) (h : P s.notices) :
    P (l.foldl State.retire s).notices := by
  induction l generalizing s with
  | nil => exact h
  | cons n t ih => exact ih _ (State.retire_notices hP s n h)

/-! ## Claims, timers, links -/

theorem State.loadTimer_frame (s : State) (n : Fin 8) : s.loadTimer n = { s with chans := (s.loadTimer n).chans } := rfl

@[simp] theorem State.loadTimer_chan (s : State) (n m : Fin 8) :
    (s.loadTimer n).chan m =
      if n = m then { s.chan m with timer := (s.chan m).timer.load (s.chan m).config s.clock } else s.chan m := by
  unfold State.loadTimer
  by_cases h : n = m
  · subst h; simp
  · simp [h]

theorem State.releaseClaim_frame (s : State) (n : Fin 8) :
    s.releaseClaim n = { s with
      map := { s.map with
        tubes := (s.releaseClaim n).map.tubes
        census := (s.releaseClaim n).map.census
        armed := (s.releaseClaim n).map.armed }
      notices := (s.releaseClaim n).notices
      chans := (s.releaseClaim n).chans
      walker := { s.walker with
        waiting := (s.releaseClaim n).walker.waiting, seek := (s.releaseClaim n).walker.seek } } := by
  unfold State.releaseClaim
  split
  · rfl
  · rw [State.changeTube_frame]; rfl

theorem State.releaseClaim_notices (hP : KeptByPosts P) (s : State) (n : Fin 8) (h : P s.notices) :
    P (s.releaseClaim n).notices := by
  unfold State.releaseClaim
  split
  · exact h
  · exact State.changeTube_notices hP _ _ _ h

theorem State.grant_frame (s : State) (n : Fin 8) (i : Nat) (t : Tube) :
    s.grant n i t = { s with
      map := { s.map with
        tubes := (s.grant n i t).map.tubes
        census := (s.grant n i t).map.census
        armed := (s.grant n i t).map.armed }
      notices := (s.grant n i t).notices
      chans := (s.grant n i t).chans
      walker := { s.walker with
        waiting := (s.grant n i t).walker.waiting, seek := (s.grant n i t).walker.seek }
      txs := (s.grant n i t).txs } := by
  unfold State.grant State.send State.loadTimer State.setChan
  dsimp only
  rw [State.changeTube_frame]

theorem State.grant_notices (hP : KeptByPosts P) (s : State) (n : Fin 8) (i : Nat) (t : Tube) (h : P s.notices) :
    P (s.grant n i t).notices :=
  State.changeTube_notices hP s i _ h

theorem State.linkError_frame (s : State) (n : Fin 8) (e : LinkError) :
    s.linkError n e = { s with
      links := s.links.set n ((s.link n).fail e), notices := (s.linkError n e).notices } := by
  unfold State.linkError
  dsimp only
  split <;> rfl

theorem State.linkError_notices (hP : KeptByPosts P) (s : State) (n : Fin 8) (e : LinkError) (h : P s.notices) :
    P (s.linkError n e).notices := by
  unfold State.linkError
  dsimp only
  split
  · exact hP _ _ _ h
  · exact h

theorem State.sendClaim_frame (s : State) (n : Fin 8) (k : MessageKind) :
    s.sendClaim n k = { s with txs := (s.sendClaim n k).txs } := by
  unfold State.sendClaim
  split <;> rfl

theorem State.revive_frame (s : State) (n : Fin 8) (x : ChanState) :
    s.revive n x = { s with chans := (s.revive n x).chans, txs := (s.revive n x).txs } := by
  unfold State.revive
  rw [State.sendClaim_frame]
  rfl

/-! ## The port -/

/-- What a request row can do (R180 to R184): nothing while RESET# is low, an overrun, a refusal with an empty body,
or the command. -/
theorem State.takeRequest_cases (s : State) (c : Command) (rq : Requester) (b : Bool) (act : State → State) :
    (s.held = true ∧ s.takeRequest c rq b act = s) ∨
    (s.held = false ∧ (s.port.mode = .executing ∨ s.port.mode = .responding) ∧ s.takeRequest c rq b act = s.overrun) ∨
    (s.held = false ∧ (s.port.mode = .idle ∨ s.port.mode = .receiving) ∧
      ((∃ st, portRefusal c rq.role s.map.phase b = some st ∧ s.takeRequest c rq b act = s.answer c st []) ∨
       (portRefusal c rq.role s.map.phase b = none ∧ s.takeRequest c rq b act = act s))) := by
  unfold State.takeRequest
  cases hh : s.held with
  | true => exact .inl ⟨rfl, rfl⟩
  | false =>
    refine .inr ?_
    rw [if_neg Bool.false_ne_true]
    cases hm : s.port.mode with
    | executing => exact .inl ⟨rfl, .inl rfl, rfl⟩
    | responding => exact .inl ⟨rfl, .inr rfl, rfl⟩
    | idle =>
      refine .inr ⟨rfl, .inl rfl, ?_⟩
      cases hp : portRefusal c rq.role s.map.phase b with
      | none => exact .inr ⟨rfl, rfl⟩
      | some st => exact .inl ⟨st, rfl, rfl⟩
    | receiving =>
      refine .inr ⟨rfl, .inr rfl, ?_⟩
      cases hp : portRefusal c rq.role s.map.phase b with
      | none => exact .inr ⟨rfl, rfl⟩
      | some st => exact .inl ⟨st, rfl, rfl⟩

/-- A request that the port takes (checks 3 and 4 of R181 passed): check 5, then the command. -/
theorem State.takeRequest_takes {s : State} {c : Command} {rq : Requester} (h : s.takes c rq = true) (b : Bool)
    (act : State → State) : s.takeRequest c rq b act = if b then act s else s.answer c .range [] := by
  simp only [State.takes, State.open, Command.permits, Bool.and_eq_true, Bool.not_eq_true',
    decide_eq_true_eq] at h
  obtain ⟨⟨hh, hm⟩, hp⟩ := h
  cases hr : roleOf rq.role with
  | none => simp [hr] at hp
  | some r =>
    simp only [hr, Bool.and_eq_true] at hp
    unfold State.takeRequest portRefusal
    rcases hm with hm | hm <;> cases b <;> simp [hh, hm, hr, hp.1, hp.2]

/-- An event while RESET# is high. -/
theorem State.whenRunning_running {s : State} (h : s.held = false) (act : State → State) :
    s.whenRunning act = act s := by simp [State.whenRunning, h]

/-- A request that the port takes finds RESET# high. -/
theorem State.takes_held {s : State} {c : Command} {rq : Requester} (h : s.takes c rq = true) : s.held = false := by
  simp only [State.takes, State.open, Bool.and_eq_true, Bool.not_eq_true'] at h
  exact h.1.1

end Sys2Proof.Machine
end

