-- ==== Sys2Proof/Laws/Claims.lean ====
section
/-! SUPPORT. Numbers of a bank as a request carries them, the tube a name names, the clearance test (R47, R73), and a
granted claim (R46) said once. -/

namespace Sys2Proof.Machine

/-! ## Numbers -/

@[simp] theorem eightOf_val (n : Fin 8) : eightOf n.val = n := by
  match n with
  | 0 | 1 | 2 | 3 | 4 | 5 | 6 | 7 => rfl

@[simp] theorem fourOf_val (n : Fin 4) : fourOf n.val = n := by
  match n with
  | 0 | 1 | 2 | 3 => rfl

@[simp] theorem numberInRange_val (n : Fin 8) : numberInRange n.val = true := by
  simp only [numberInRange, decide_eq_true_eq]
  omega

/-- `rising` says that the numbers rise strictly (R7, R126). -/
theorem rising_iff : ∀ l : List Nat, rising l = true ↔ l.Pairwise (· < ·)
  | [] => by simp [rising]
  | [a] => by simp [rising]
  | a :: b :: t => by
    rw [rising, Bool.and_eq_true, decide_eq_true_eq, rising_iff (b :: t), List.pairwise_cons (a := a)]
    constructor
    · rintro ⟨h1, h2⟩
      refine ⟨fun x hx => ?_, h2⟩
      rcases List.mem_cons.1 hx with rfl | hx
      · exact h1
      · exact lt_trans h1 ((List.pairwise_cons.1 h2).1 x hx)
    · rintro ⟨h1, h2⟩
      exact ⟨h1 b (by simp), h2⟩

/-! ## Names -/

/-- The tube a name names is the record of its index (R1). -/
theorem State.findNamed_tube {s : State} {name : TubeName} {i : Nat} {t : Tube}
    (h : s.findNamed name = some (i, t)) : s.tube i = some t := by
  unfold State.findNamed at h
  split at h
  · cases h
  · simp only [Option.map_eq_some_iff, Prod.mk.injEq] at h
    obtain ⟨a, h1, h2, h3⟩ := h
    subst h2 h3
    exact h1

/-! ## The clearance test -/

theorem State.clearanceHit_false (s : State) (f : Face) (p : Pos) :
    s.clearanceHit f p = false ↔ ∀ (m : Fin 8) (k : Claim), (s.chan m).claim = some k → k.face = f →
      s.walker.clearance < k.pos.distance p := by
  rw [← Bool.not_eq_true, State.clearanceHit, Eight.any_toList, not_exists]
  refine forall_congr' fun m => ?_
  simp only [State.chan]
  cases (s.chans.get m).claim <;> simp [not_le]

/-! ## A granted claim -/

theorem Eight.set_set {α : Type} (v : Eight α) (n : Fin 8) (x y : α) : (v.set n x).set n y = v.set n y := by
  apply Eight.ext_get
  intro i
  simp only [Eight.get_set]
  split <;> simp_all

/-- A grant of a tube that can be claimed (R23, R46, R58): tube and channel take the claim, ASSIGN is sent, and no
channel is signalled. -/
theorem State.grant_spec (s : State) (n : Fin 8) (i : Nat) (t : Tube) (ht : s.tube i = some t) :
    (s.grant n i t).tube i = some { t with state := .claimed, claim := some n } ∧
    (∀ j, j ≠ i → (s.grant n i t).tube j = s.tube j) ∧
    s.grant n i t = { s with
      map := { s.map with
        tubes := (s.grant n i t).map.tubes, census := (s.grant n i t).map.census, armed := (s.grant n i t).map.armed }
      notices := (s.grant n i t).notices
      chans := s.chans.set n
        { s.chan n with
          state := .assigned, claim := some (grantClaim (s.chan n).config i t), lastCount := none
          timer := (s.chan n).timer.load (s.chan n).config s.clock }
      txs := s.txs.set n
        ((s.txs.get n).enqueue { kind := .assign, echo := (grantClaim (s.chan n).config i t).echo }) } := by
  have hq := State.changeTube_quiet s i (fun t => { t with state := .claimed, claim := some n }) (fun t _ => .inr rfl)
  have hg : ∀ j, (s.grant n i t).tube j =
      (s.changeTube i (fun t => { t with state := .claimed, claim := some n })).tube j := fun _ => rfl
  have hc : (s.grant n i t).chans = s.chans.set n
      { s.chan n with
        state := .assigned, claim := some (grantClaim (s.chan n).config i t), lastCount := none
        timer := (s.chan n).timer.load (s.chan n).config s.clock } := by
    simp only [State.grant, State.send, State.loadTimer, State.setChan, State.chan, hq.1, Eight.set_set,
      Eight.get_set, if_true]
    rw [State.changeTube_frame]
  have hx : (s.grant n i t).txs = s.txs.set n
      ((s.txs.get n).enqueue { kind := .assign, echo := (grantClaim (s.chan n).config i t).echo }) := by
    simp only [State.grant, State.send, State.loadTimer, State.setChan]
    rw [State.changeTube_frame]
  have hw : (s.grant n i t).walker = s.walker := hq.2
  refine ⟨?_, ?_, ?_⟩
  · rw [hg, State.changeTube_tube, if_pos rfl, ht]
    rfl
  · intro j hj
    rw [hg, State.changeTube_tube, if_neg (Ne.symm hj)]
  · conv_lhs => rw [State.grant_frame]
    rw [hc, hx, hw]

end Sys2Proof.Machine
end

