-- ==== Sys2Proof/Laws/Completion.lean ====
section
/-! SUPPORT. What a post tells and enters, and the completion check of R19 as a change of a tube record applies it. -/

namespace Sys2Proof.Machine

/-! ## Posts -/

/-- A notice that stands, or whose loss the overflow flag shows, is kept so by every post (R189). -/
theorem NoticeUnit.told_kept (c : NoticeClass) (n : Nat) (l : Levels) :
    KeptByPosts (fun u => u.levels = l ∧ u.told c n) := by
  intro u d k ⟨hl, h⟩
  unfold NoticeUnit.told at *
  have hins : ∀ (x y : Notice) (t : List Notice), x ∈ insertNotice y t ↔ x = y ∨ x ∈ t := by
    intro x y t
    induction t with
    | nil => simp [insertNotice]
    | cons a t ih =>
      unfold insertNotice
      split
      · simp
      · simp only [List.mem_cons, ih]; tauto
  unfold NoticeUnit.post
  dsimp only
  split
  · exact ⟨hl, h⟩
  · split
    · exact ⟨hl, h⟩
    · split
      · refine ⟨hl, fun hc => ?_⟩
        rcases h hc with h | h
        · exact .inl ((hins _ _ _).2 (.inr h))
        · exact .inr h
      · split
        · exact ⟨hl, fun _ => .inr rfl⟩
        · split
          · exact ⟨hl, fun _ => .inr rfl⟩
          · exact ⟨hl, fun _ => .inr rfl⟩

/-- A post tells (R188, R189). -/
theorem NoticeUnit.post_told (u : NoticeUnit) (c : NoticeClass) (n : Nat) : (u.post c n).told c n := by
  have hins : ∀ (y : Notice) (t : List Notice), y ∈ insertNotice y t := by
    intro y t
    induction t with
    | nil => simp [insertNotice]
    | cons a t ih =>
      unfold insertNotice
      split
      · simp
      · exact List.mem_cons_of_mem _ ih
  unfold NoticeUnit.told NoticeUnit.post
  dsimp only
  split
  · rename_i h; intro h'; exact absurd h h'
  · split
    · rename_i h; intro _; exact .inl h
    · split
      · intro _; exact .inl (hins _ _)
      · split
        · intro _; exact .inr rfl
        · split
          · intro _; exact .inr rfl
          · intro _; exact .inr rfl

/-- A notice told in the state stays told under whatever reaches the notice unit by posts alone. -/
theorem told_of_kept {s u : State} {c : NoticeClass} {n : Nat}
    (h : ∀ P : NoticeUnit → Prop, KeptByPosts P → P s.notices → P u.notices) (ht : s.notices.told c n) :
    u.notices.told c n :=
  (h _ (NoticeUnit.told_kept c n s.notices.levels) ⟨rfl, ht⟩).2

/-! ## Which notices an operation can enter -/

/-- A post enters no notice but its own (R188, R189). -/
theorem NoticeUnit.post_enters {u : NoticeUnit} {c : NoticeClass} {n : Nat} {m : Notice}
    (h : m ∈ (u.post c n).pending) : m ∈ u.pending ∨ m.cls = c := by
  have hins : ∀ (x y : Notice) (t : List Notice), x ∈ insertNotice y t → x ∈ t ∨ x = y := by
    intro x y t
    induction t with
    | nil => simp [insertNotice]
    | cons a t ih =>
      unfold insertNotice
      split
      · simp only [List.mem_cons]; tauto
      · simp only [List.mem_cons]; tauto
  have hown : ∀ t : List Notice, m ∈ insertNotice { cls := c, subject := n } t → m ∈ t ∨ m.cls = c := by
    intro t ht
    rcases hins _ _ _ ht with h | h
    · exact .inl h
    · exact .inr (by rw [h])
  unfold NoticeUnit.post at h
  dsimp only at h
  split at h
  · exact .inl h
  · split at h
    · exact .inl h
    · split at h
      · exact hown _ h
      · split at h
        · exact .inl h
        · split at h
          · rcases hown _ h with h | h
            · exact .inl (List.mem_of_mem_erase h)
            · exact .inr h
          · exact .inl h

theorem State.postWatch_enters {s : State} {p : Pos} {m : Notice} (h : m ∈ (s.postWatch p).notices.pending) :
    m ∈ s.notices.pending ∨ m.cls = .watch := by
  have key : ∀ (l : List (Fin 4)) (u : State), m ∈ (l.foldl (State.watchSlot p) u).notices.pending →
      m ∈ u.notices.pending ∨ m.cls = .watch := by
    intro l
    induction l with
    | nil => intro u hu; exact .inl hu
    | cons a t ih =>
      intro u hu
      rcases ih _ hu with h | h
      · unfold State.watchSlot at h
        split at h
        · exact NoticeUnit.post_enters h
        · exact .inl h
      · exact .inr h
  exact key _ _ h

theorem State.completionAfter_enters {s : State} {o : Census} {m : Notice}
    (h : m ∈ (s.completionAfter o).notices.pending) : m ∈ s.notices.pending ∨ m.cls = .campaignComplete := by
  unfold State.completionAfter at h
  split at h
  · exact .inl h
  · unfold State.checkCompletion at h
    split at h
    · exact .inl h
    · split at h
      · exact .inl h
      · split at h
        · exact NoticeUnit.post_enters h
        · exact .inl h

/-! ## The completion check (R19) -/

/-- The check stands through whatever leaves the counts and the flag alone and posts no CAMPAIGN_COMPLETE. -/
theorem State.completes_later {s u v : State} (h : s.completes u) (hc : v.map.census = u.map.census)
    (ha : v.map.armed = u.map.armed)
    (ht : u.notices.told .campaignComplete 0 → v.notices.told .campaignComplete 0)
    (hn : ∀ m ∈ v.notices.pending, m.cls = .campaignComplete → m ∈ u.notices.pending) : s.completes v := by
  intro applied complete h1 h2
  rw [hc] at h1 h2 ⊢
  rw [ha]
  obtain ⟨a, b, c, d⟩ := h applied complete h1 h2
  exact ⟨fun x y => ⟨(a x y).1, ht (a x y).2⟩, b, c, fun x m hm hk => d x m (hn m hm hk) hk⟩

/-- The check read from a state before, whose phase, two counts and flag are the same and whose notices of the class
include those of the later state. -/
theorem State.completes_earlier {s r u : State} (h : r.completes u) (hp : r.map.phase = s.map.phase)
    (hc : r.map.census.planned = s.map.census.planned ∧ r.map.census.plannedOpen = s.map.census.plannedOpen)
    (ha : r.map.armed = s.map.armed)
    (hn : ∀ m ∈ r.notices.pending, m.cls = .campaignComplete → m ∈ s.notices.pending) : s.completes u := by
  intro applied complete h1 h2
  rw [← hp, ← hc.1, ← hc.2] at h1
  rw [← ha] at h2 ⊢
  rw [← hc.2]
  obtain ⟨a, b, c, d⟩ := h applied complete h1 h2
  exact ⟨a, b, c, fun x m hm hk => hn m (d x m hm hk) hk⟩

/-- The check after a change of the census. -/
theorem State.completionAfter_completes {s u : State} (hp : u.map.phase = s.map.phase) (ha : u.map.armed = s.map.armed)
    (hn : ∀ m ∈ u.notices.pending, m.cls = .campaignComplete → m ∈ s.notices.pending) :
    s.completes (u.completionAfter s.map.census) := by
  intro applied complete h1 h2
  have hcen : (u.completionAfter s.map.census).map.census = u.map.census := by rw [State.completionAfter_frame]
  rw [hcen] at h1 h2 ⊢
  by_cases heq : u.map.census.planned = s.map.census.planned ∧ u.map.census.plannedOpen = s.map.census.plannedOpen
  · have : u.completionAfter s.map.census = u := by unfold State.completionAfter; rw [if_pos heq]
    rw [this]
    have hna : ¬ applied := fun h => by rcases (h1.1 h).2 with h | h <;> [exact h heq.1; exact h heq.2]
    exact ⟨fun h => absurd h hna, fun h => absurd h hna, fun _ => ha, fun _ => hn⟩
  · have hch : u.completionAfter s.map.census = u.checkCompletion := by unfold State.completionAfter; rw [if_neg heq]
    rw [hch]
    unfold State.checkCompletion
    by_cases hact : u.map.phase = .active
    · have happ : applied := h1.2 ⟨hp ▸ hact, by tauto⟩
      rw [if_neg (by simpa using hact)]
      by_cases hop : 0 < u.map.census.plannedOpen
      · rw [if_pos hop]
        have hnc : ¬ complete := fun h => by have := (h2.1 h).1; omega
        exact ⟨fun _ h => absurd h hnc, fun _ _ _ => rfl,
          fun h => by rcases h with h | ⟨h, -⟩ <;> [exact absurd happ h; omega], fun _ => hn⟩
      · rw [if_neg hop]
        by_cases hco : complete
        · obtain ⟨-, c2, c3⟩ := h2.1 hco
          rw [if_pos (by simp [ha, c2, c3])]
          exact ⟨fun _ _ => ⟨rfl, NoticeUnit.post_told _ _ _⟩, fun _ h => absurd h hop,
            fun h => by rcases h with h | ⟨-, h⟩ <;> [exact absurd happ h; exact absurd hco h],
            fun h => absurd ⟨happ, hco⟩ h⟩
        · have hz : ¬ (u.map.armed && decide (0 < u.map.census.planned)) = true := by
            intro h
            simp only [Bool.and_eq_true, decide_eq_true_eq] at h
            exact hco (h2.2 ⟨by omega, h.2, ha ▸ h.1⟩)
          rw [if_neg hz]
          exact ⟨fun _ h => absurd h hco, fun _ h => absurd h hop, fun _ => ha, fun _ => hn⟩
    · rw [if_pos (by simpa using hact)]
      have hna : ¬ applied := fun h => hact (hp ▸ (h1.1 h).1)
      exact ⟨fun h => absurd h hna, fun h => absurd h hna, fun _ => ha, fun _ => hn⟩

/-- A step that leaves the two counts, the flag and the class alone. -/
theorem State.completes_same {s u : State}
    (hc : u.map.census.planned = s.map.census.planned ∧ u.map.census.plannedOpen = s.map.census.plannedOpen)
    (ha : u.map.armed = s.map.armed)
    (hn : ∀ m ∈ u.notices.pending, m.cls = .campaignComplete → m ∈ s.notices.pending) : s.completes u := by
  intro applied complete h1 _
  have hna : ¬ applied := fun h => by rcases (h1.1 h).2 with h | h <;> [exact h hc.1; exact h hc.2]
  exact ⟨fun h => absurd h hna, fun h => absurd h hna, fun _ => ha, fun _ => hn⟩

/-- A change of one tube record applies the check to the counts it changes (R18, R19). -/
theorem State.changeTube_completes (s : State) (i : Nat) (f : Tube → Tube) : s.completes (s.changeTube i f) := by
  cases ht : s.tube i with
  | none => rw [State.changeTube_none s i f ht]; exact State.completes_same ⟨rfl, rfl⟩ rfl (fun _ h _ => h)
  | some t =>
    have hb : ∀ (b : Bool) (v : State), (if b then v.post .blocked i else v).map = v.map ∧
        ∀ m ∈ (if b then v.post .blocked i else v).notices.pending, m.cls = .campaignComplete →
          m ∈ v.notices.pending := by
      intro b v
      cases b
      · exact ⟨rfl, fun _ h _ => h⟩
      · refine ⟨rfl, fun m h hk => ?_⟩
        rcases NoticeUnit.post_enters h with h | h
        · exact h
        · rw [hk] at h; cases h
    have hs : ∀ (b : Bool) (v : State), (if b then v.candidatesChanged else v).map = v.map ∧
        (if b then v.candidatesChanged else v).notices = v.notices := by
      intro b v
      cases b
      · exact ⟨rfl, rfl⟩
      · rw [if_pos rfl, State.candidatesChanged_frame]; exact ⟨rfl, rfl⟩
    have hw : ∀ (b : Bool) (v : State) (p : Pos), s.completes v → s.completes (if b then v.postWatch p else v) := by
      intro b v p hv
      cases b
      · exact hv
      · rw [if_pos rfl]
        refine State.completes_later hv (by rw [State.postWatch_frame]) (by rw [State.postWatch_frame])
          (told_of_kept (fun P hP => State.postWatch_notices hP v p)) (fun m hm hk => ?_)
        rcases State.postWatch_enters hm with h | h
        · exact h
        · rw [hk] at h; cases h
    unfold State.changeTube
    rw [ht]
    refine hw _ _ _ ?_
    generalize hv : (if (decide (t.state ≠ (f t).state) && decide ((f t).state = .blocked)) = true then
      ({ s with map := s.map.replace i t (f t) } : State).post .blocked i
      else { s with map := s.map.replace i t (f t) }) = v
    have hv1 := hb (decide (t.state ≠ (f t).state) && decide ((f t).state = .blocked))
      { s with map := s.map.replace i t (f t) }
    rw [hv] at hv1
    refine State.completes_later (State.completionAfter_completes (u := v) ?_ ?_ hv1.2) ?_ ?_ ?_ ?_
    · rw [hv1.1]; rfl
    · rw [hv1.1]; rfl
    · rw [(hs _ _).1]
    · rw [(hs _ _).1]
    · rw [(hs _ _).2]; exact id
    · rw [(hs _ _).2]; exact fun _ h _ => h

/-- An evaluation applies the check to the counts it changes (R31, R19). -/
theorem State.evaluate_completes (s : State) (i : Nat) : s.completes (s.evaluate i) := by
  unfold State.evaluate
  split
  · exact State.completes_same ⟨rfl, rfl⟩ rfl (fun _ h _ => h)
  · dsimp only
    split
    · refine State.completes_later (s.changeTube_completes i _) rfl rfl
        (fun h => told_of_kept (fun P hP hq => hP _ _ _ hq) h) (fun m hm hk => ?_)
      rcases NoticeUnit.post_enters hm with h | h
      · exact h
      · rw [hk] at h; cases h
    · exact s.changeTube_completes i _

/-- A change of an entry's status applies the check to the counts it changes. -/
theorem State.changeStatus_completes (s : State) (n : Nat) (e : Entry) : s.completes (s.changeStatus n e) := by
  unfold State.changeStatus State.watchTube
  have h : s.completes ({ s with store := s.store.setEntry n e }.evaluate e.tube) :=
    State.evaluate_completes { s with store := s.store.setEntry n e } e.tube
  split
  · exact h
  · refine State.completes_later h (by rw [State.postWatch_frame]) (by rw [State.postWatch_frame])
      (told_of_kept (fun P hP => State.postWatch_notices hP _ _)) (fun m hm hk => ?_)
    rcases State.postWatch_enters hm with h | h
    · exact h
    · rw [hk] at h; cases h

/-! ## Changes that leave the two counts alone -/

@[simp] theorem Census.setCount_planned (c : Census) (x : TubeState) (v : Nat) :
    (c.setCount x v).planned = c.planned ∧ (c.setCount x v).plannedOpen = c.plannedOpen := by cases x <;> exact ⟨rfl, rfl⟩

theorem Census.enter_counts (c : Census) (t : Tube) : (c.enter t).planned = c.planned + t.planned.toNat ∧
    (c.enter t).plannedOpen = c.plannedOpen + t.isOpen.toNat := by simp [Census.enter]

theorem Census.leave_counts (c : Census) (t : Tube) : (c.leave t).planned = c.planned - t.planned.toNat ∧
    (c.leave t).plannedOpen = c.plannedOpen - t.isOpen.toNat := by simp [Census.leave]

/-- A census counted from the records counts every tube of them (R18). -/
theorem censusOf_counts {l : List Tube} {t : Tube} (h : t ∈ l) :
    t.planned.toNat ≤ (censusOf l).planned ∧ t.isOpen.toNat ≤ (censusOf l).plannedOpen := by
  have key : ∀ (l : List Tube) (c : Census),
      (t.planned.toNat ≤ c.planned ∧ t.isOpen.toNat ≤ c.plannedOpen) ∨ t ∈ l →
      t.planned.toNat ≤ (l.foldl Census.enter c).planned ∧ t.isOpen.toNat ≤ (l.foldl Census.enter c).plannedOpen := by
    intro l
    induction l with
    | nil => intro c h; simpa using h
    | cons a l ih =>
      intro c h
      refine ih (c.enter a) ?_
      rw [(c.enter_counts a).1, (c.enter_counts a).2]
      rcases h with h | h
      · exact .inl ⟨by omega, by omega⟩
      · rcases List.mem_cons.1 h with rfl | h
        · exact .inl ⟨by omega, by omega⟩
        · exact .inr h
  exact key l _ (.inr h)

/-- A change that keeps a tube's planned flag, and keeps it in or out of the terminal states, keeps the two counts and so
the completion flag, where the census counts the tube (R18, R19). -/
theorem State.changeTube_kept (s : State) (i : Nat) (f : Tube → Tube) (t : Tube) (ht : s.tube i = some t)
    (hc : t.planned.toNat ≤ s.map.census.planned ∧ t.isOpen.toNat ≤ s.map.census.plannedOpen)
    (hp : (f t).planned = t.planned) (ho : (f t).isOpen = t.isOpen) :
    (s.changeTube i f).map.census.planned = s.map.census.planned ∧
    (s.changeTube i f).map.census.plannedOpen = s.map.census.plannedOpen ∧
    (s.changeTube i f).map.armed = s.map.armed ∧
    ∀ m ∈ (s.changeTube i f).notices.pending, m.cls = .campaignComplete → m ∈ s.notices.pending := by
  have hcen : (s.changeTube i f).map.census = s.map.census.move t (f t) := by
    unfold State.changeTube
    rw [ht]
    have hb : ∀ (b : Bool) (v : State), (if b then v.post .blocked i else v).map = v.map := by
      intro b v; cases b <;> rfl
    have hs : ∀ (b : Bool) (v : State), (if b then v.candidatesChanged else v).map = v.map := by
      intro b v
      cases b
      · rfl
      · rw [if_pos rfl, State.candidatesChanged_frame]
    have hw : ∀ (b : Bool) (v : State) (p : Pos), (if b then v.postWatch p else v).map = v.map := by
      intro b v p
      cases b
      · rfl
      · rw [if_pos rfl, State.postWatch_frame]
    have hk : ∀ (v : State) (o : Census), (v.completionAfter o).map.census = v.map.census := by
      intro v o; rw [State.completionAfter_frame]
    simp only [hw, hs, hk, hb, TubeMap.replace]
  have h1 : (s.changeTube i f).map.census.planned = s.map.census.planned := by
    rw [hcen, Census.move, (Census.enter_counts _ _).1, (Census.leave_counts _ _).1, hp]; omega
  have h2 : (s.changeTube i f).map.census.plannedOpen = s.map.census.plannedOpen := by
    rw [hcen, Census.move, (Census.enter_counts _ _).2, (Census.leave_counts _ _).2, ho]; omega
  have hna : ¬ (s.map.phase = .active ∧ ((s.changeTube i f).map.census.planned ≠ s.map.census.planned ∨
      (s.changeTube i f).map.census.plannedOpen ≠ s.map.census.plannedOpen)) := by rw [h1, h2]; simp
  obtain ⟨-, -, ha, hn⟩ := s.changeTube_completes i f _ _ Iff.rfl Iff.rfl
  exact ⟨h1, h2, ha (.inl hna), hn (fun h => hna h.1)⟩

/-- A change of a tube that keeps the two counts, and an evaluation after it, apply the check to the counts the evaluation
changes (R27, R174). -/
theorem State.changeTube_evaluate_completes (s : State) (i : Nat) (f : Tube → Tube) (t : Tube) (ht : s.tube i = some t)
    (hc : s.censusTrue) (hp : (f t).planned = t.planned) (ho : (f t).isOpen = t.isOpen) :
    s.completes ((s.changeTube i f).evaluate i) := by
  have h := s.changeTube_kept i f t ht (by rw [hc]; exact censusOf_counts (List.mem_of_getElem? ht)) hp ho
  exact State.completes_earlier (State.evaluate_completes _ i) (by rw [State.changeTube_frame]) ⟨h.1, h.2.1⟩ h.2.2.1
    h.2.2.2

end Sys2Proof.Machine
end

