-- ==== Sys2Proof/Laws/Filing.lean ====
section
/-! SUPPORT. Filing and retirement, said once: the sorted insertion (R145), the match (R147), the shallowest NEW entry
(R152), a creation (R151), and the retirement of a whole list (R156). -/

namespace Sys2Proof.Machine

/-! ## The tube's list -/

/-- An insertion splits the list at the first entry that the new one goes before (R145). -/
theorem insertEntry_split (st : Store) (n : Nat) (e : Entry) (l : List Nat) :
    ∃ l1 l2, insertEntry st n e l = l1 ++ n :: l2 ∧ l = l1 ++ l2 ∧
      (∀ j ∈ l1, ∀ f, st.entry j = some f → e.before f = false) ∧
      ∀ j, l2.head? = some j → ∃ f, st.entry j = some f ∧ e.before f = true := by
  induction l with
  | nil => exact ⟨[], [], rfl, rfl, by simp, by simp⟩
  | cons m t ih =>
    obtain ⟨l1, l2, h1, h2, h3, h4⟩ := ih
    unfold insertEntry
    cases hm : st.entry m with
    | none =>
      refine ⟨m :: l1, l2, by simp [h1], by simp [h2], ?_, h4⟩
      intro j hj f hf
      rcases List.mem_cons.1 hj with rfl | hj
      · rw [hm] at hf; cases hf
      · exact h3 j hj f hf
    | some f =>
      dsimp only
      split
      · rename_i hb
        refine ⟨[], m :: t, rfl, rfl, by simp, ?_⟩
        intro j hj; simp at hj; subst hj; exact ⟨f, hm, hb⟩
      · rename_i hb
        refine ⟨m :: l1, l2, by simp [h1], by simp [h2], ?_, h4⟩
        intro j hj g hg
        rcases List.mem_cons.1 hj with rfl | hj
        · rw [hm] at hg; cases hg; simpa using hb
        · exact h3 j hj g hg

/-- The entries of a list, with their numbers. -/
theorem Store.mem_listed (st : Store) (l : List Nat) (x : Nat × Entry) :
    x ∈ st.listed l ↔ x.1 ∈ l ∧ st.entry x.1 = some x.2 := by
  obtain ⟨n, e⟩ := x
  simp only [Store.listed, List.mem_filterMap, Option.map_eq_some_iff]
  constructor
  · rintro ⟨a, ha, b, hb, h⟩; cases h; exact ⟨ha, hb⟩
  · rintro ⟨h1, h2⟩; exact ⟨n, h1, e, h2, rfl⟩

/-! ## The match (R147) -/

theorem nearestEntry_mem (m : Measurement) :
    ∀ (l : List (Nat × Entry)) x, nearestEntry m l = some x → x ∈ l ∧ x.2.freq = m.freq := by
  intro l
  induction l with
  | nil => intro x h; simp [nearestEntry] at h
  | cons a t ih =>
    intro x h
    unfold nearestEntry at h
    cases hn : nearestEntry m t with
    | none =>
      rw [hn] at h; dsimp only at h
      split at h
      · cases h; simp_all
      · cases h
    | some b =>
      rw [hn] at h; dsimp only at h
      split at h
      · cases h; rename_i hh; exact ⟨by simp, hh.1⟩
      · cases h; exact ⟨List.mem_cons_of_mem _ (ih _ hn).1, (ih _ hn).2⟩

/-- The nearest entry of the measurement's frequency is the match's candidate, the earlier of two at one distance. -/
theorem nearestEntry_eq (m : Measurement) (x : Nat × Entry) (hf : x.2.freq = m.freq) :
    ∀ (l : List (Nat × Entry)), x ∈ l →
    l.Pairwise (fun a b => a.2.measured.axial ≤ b.2.measured.axial) →
    (∀ y ∈ l, y.2.freq = m.freq → y ≠ x →
      apart x.2.measured.axial m.measured.axial < apart y.2.measured.axial m.measured.axial ∨
      (apart x.2.measured.axial m.measured.axial = apart y.2.measured.axial m.measured.axial ∧
        x.2.measured.axial < y.2.measured.axial)) →
    nearestEntry m l = some x := by
  intro l
  induction l with
  | nil => intro h; simp at h
  | cons a t ih =>
    intro hx hp hy
    have hp' := List.pairwise_cons.1 hp
    unfold nearestEntry
    by_cases hxt : x ∈ t
    · rw [ih hxt hp'.2 (fun y hyt => hy y (List.mem_cons_of_mem _ hyt))]
      dsimp only
      split
      · rename_i h
        by_cases hax : a = x
        · rw [hax]
        · rcases hy a (by simp) h.1 hax with h' | h'
          · omega
          · have := hp'.1 x hxt; omega
      · rfl
    · have hax : x = a := by
        rcases List.mem_cons.1 hx with h | h
        · exact h
        · exact absurd h hxt
      subst hax
      cases hn : nearestEntry m t with
      | none => simp [hf]
      | some b =>
        obtain ⟨hb, hbf⟩ := nearestEntry_mem m t b hn
        dsimp only
        rw [if_pos]
        refine ⟨hf, ?_⟩
        rcases hy b (List.mem_cons_of_mem _ hb) hbf (by rintro rfl; exact hxt hb) with h | h <;> omega

/-! ## The list-full rule (R152) -/

theorem shallowestNew_mem :
    ∀ (l : List (Nat × Entry)) x, shallowestNew l = some x → x ∈ l ∧ x.2.status = .new := by
  intro l
  induction l with
  | nil => intro x h; simp [shallowestNew] at h
  | cons a t ih =>
    intro x h
    unfold shallowestNew at h
    cases hn : shallowestNew t with
    | none =>
      rw [hn] at h; dsimp only at h
      split at h
      · cases h; simp_all
      · cases h
    | some b =>
      rw [hn] at h; dsimp only at h
      split at h
      · cases h; rename_i hh; exact ⟨by simp, hh.1⟩
      · cases h; exact ⟨List.mem_cons_of_mem _ (ih _ hn).1, (ih _ hn).2⟩

/-- The first of the NEW entries of smallest instrument depth is the one replaced. -/
theorem shallowestNew_eq (x : Nat × Entry) (hs : x.2.status = .new) (b : List (Nat × Entry))
    (hb : ∀ y ∈ b, y.2.status = .new → x.2.measured.depth ≤ y.2.measured.depth) :
    ∀ a : List (Nat × Entry),
    (∀ y ∈ a, y.2.status = .new → x.2.measured.depth < y.2.measured.depth) → shallowestNew (a ++ x :: b) = some x := by
  intro a
  induction a with
  | nil =>
    intro _
    rw [List.nil_append]
    unfold shallowestNew
    cases hn : shallowestNew b with
    | none => simp [hs]
    | some z =>
      have := shallowestNew_mem b z hn
      dsimp only; rw [if_pos ⟨hs, hb z this.1 this.2⟩]
  | cons c t ih =>
    intro h
    rw [List.cons_append]
    unfold shallowestNew
    rw [ih (fun y hy => h y (List.mem_cons_of_mem _ hy))]
    dsimp only
    rw [if_neg]
    rintro ⟨h1, h2⟩
    have := h c (by simp) h1
    omega

/-! ## Creation (R151) -/

theorem State.setList_tube (s : State) (i : Nat) (l : List Nat) (t : Tube) (ht : s.tube i = some t) :
    (s.setList i l).tube i = some { t with entries := l } := by
  simp [State.setList, State.changeTube_tube, ht]

theorem State.setList_store (s : State) (i : Nat) (l : List Nat) : (s.setList i l).store = s.store := by
  rw [State.setList, State.changeTube_frame]

/-- A creation from a free list that is not empty. -/
theorem State.create_spec (s : State) (l : List Nat) (m : Measurement) (t : Tube) (ht : s.tube m.tube = some t)
    (n : Nat) (rest : List Nat) (hfree : s.store.free.toList = n :: rest) :
    ∃ l1 l2 : List Nat, l = l1 ++ l2 ∧
      (s.create l m).store.free.toList = rest ∧
      (s.create l m).store.slot n =
        { issue := ((s.store.slot n).issue + 1) % 256, content := some (newEntry m) } ∧
      (∀ j, j ≠ n → (s.create l m).store.slot j = s.store.slot j) ∧ (s.create l m).seats = s.seats ∧
      (∀ j ∈ l1, ∀ f, (s.create l m).store.entry j = some f → (newEntry m).before f = false) ∧
      (∀ j, l2.head? = some j → ∃ f, (s.create l m).store.entry j = some f ∧ (newEntry m).before f = true) ∧
      (s.create l m).tube m.tube = some { t with entries := l1 ++ n :: l2 } ∧
      (∀ j, j ≠ m.tube → (s.create l m).tube j = s.tube j) := by
  cases hT : s.store.free.take with
  | none => rw [FreeList.take_none] at hT; simp [hT] at hfree
  | some p =>
    obtain ⟨k, g⟩ := p
    have := FreeList.take_toList _ _ _ hT
    rw [hfree] at this
    simp only [List.cons.injEq] at this
    obtain ⟨rfl, rfl⟩ := this
    let made : PoolSlot := { issue := ((s.store.slot n).issue + 1) % 256, content := some (newEntry m) }
    let st : Store := { s.store.setSlot n made with free := g }
    have hc : s.create l m = State.watchTube (State.judgePool (State.setList { s with store := st } m.tube
        (insertEntry st n (newEntry m) l))) m.tube := by
      simp only [State.create, hT]
      rfl
    obtain ⟨l1, l2, h1, h2, h3, h4⟩ := insertEntry_split st n (newEntry m) l
    rw [h1] at hc
    have hpool : (s.create l m).store.pool = st.pool := by
      rw [hc, State.watchTube_frame, State.judgePool_frame]; simp only [State.setList_store]
    have hfr : (s.create l m).store.free = g := by
      rw [hc, State.watchTube_frame, State.judgePool_frame]; simp only [State.setList_store]; rfl
    have hslot : ∀ j, (s.create l m).store.slot j = st.slot j := by intro j; simp only [Store.slot, hpool]
    have hent : ∀ j, (s.create l m).store.entry j = st.entry j := by intro j; simp only [Store.entry, hslot]
    have hss : ∀ j, st.slot j = if n = j then made else s.store.slot j := fun j => Store.slot_setSlot s.store n j _
    refine ⟨l1, l2, h2, by rw [hfr], by rw [hslot, hss, if_pos rfl],
      fun j hj => by rw [hslot, hss, if_neg (Ne.symm hj)], ?_, ?_, ?_, ?_, ?_⟩
    · rw [hc, State.watchTube_frame, State.judgePool_frame, State.setList, State.changeTube_frame]
    · simpa only [hent] using h3
    · simpa only [hent] using h4
    · rw [hc, State.watchTube_frame, State.judgePool_frame]; exact State.setList_tube _ _ _ t ht
    · intro j hj; rw [hc, State.watchTube_frame, State.judgePool_frame]
      show (State.setList _ _ _).tube j = _
      rw [State.setList, State.changeTube_tube, if_neg (Ne.symm hj)]; rfl

/-! ## Writes to one entry -/

theorem sparsePut_put {α : Type} (l : List (Nat × α)) (n : Nat) (v w : α) :
    sparsePut (sparsePut l n v) n w = sparsePut l n w := by
  induction l with
  | nil => simp [sparsePut]
  | cons a t ih =>
    obtain ⟨k, x⟩ := a
    simp only [sparsePut]
    by_cases h1 : n < k
    · simp [h1, sparsePut]
    · by_cases h2 : n = k
      · simp [h2, sparsePut]
      · simp [h1, h2, sparsePut, ih]

/-- Of two writes to one entry the second stands. -/
theorem Store.setEntry_setEntry (st : Store) (n : Nat) (a b : Entry) : (st.setEntry n a).setEntry n b = st.setEntry n b := by
  have hs : ((st.setEntry n a).slot n).issue = (st.slot n).issue := by
    rw [Store.setEntry, Store.slot_setSlot]; simp
  rw [Store.setEntry, hs]
  simp only [Store.setEntry, Store.setSlot, sparseSet, emptySlot]
  simp [sparsePut_put]

/-! ## Retirement of a list (R156) -/

/-- A list retired: its entries are free, no other place is touched, and the seats that held one of them are free. -/
theorem State.retireList_spec (l : List Nat) : ∀ s : State,
    (∀ n ∈ l, (l.foldl State.retire s).store.entry n = none) ∧
    (∀ n, n ∉ l → (l.foldl State.retire s).store.slot n = s.store.slot n) ∧
    (∀ n, s.store.entry n = none → (l.foldl State.retire s).store.entry n = none) ∧
    (∀ k, (s.seats.get k).held = none ∧ (s.seats.get k).expiry = none →
      ((l.foldl State.retire s).seats.get k).held = none ∧ ((l.foldl State.retire s).seats.get k).expiry = none) ∧
    ∀ n e k, n ∈ l → s.store.entry n = some e → e.holder = some k →
      ((l.foldl State.retire s).seats.get k).held = none ∧ ((l.foldl State.retire s).seats.get k).expiry = none := by
  induction l with
  | nil => intro s; simp
  | cons a t ih =>
    intro s
    have hslot : ∀ k, (s.retire a).store.slot k =
        if s.store.entry a ≠ none ∧ a = k then { issue := (s.store.slot a).issue, content := none }
        else s.store.slot k := by
      intro k
      cases h : s.store.entry a with
      | none => simp [State.retire, h]
      | some e => rw [(State.retire_store s a e h).1]; simp
    have hent : ∀ k, (s.retire a).store.entry k = if a = k then none else s.store.entry k := by
      intro k; unfold Store.entry; rw [hslot]
      by_cases hk : a = k
      · subst hk; by_cases h : s.store.entry a = none
        · simp [h]; exact h
        · simp [h]
      · simp [hk]
    have hseat : ∀ k, ((s.seats.get k).held = none ∧ (s.seats.get k).expiry = none →
          ((s.retire a).seats.get k).held = none ∧ ((s.retire a).seats.get k).expiry = none) ∧
        (∀ e, s.store.entry a = some e → e.holder = some k →
          ((s.retire a).seats.get k).held = none ∧ ((s.retire a).seats.get k).expiry = none) := by
      intro k
      unfold State.retire
      cases h : s.store.entry a with
      | none => simp
      | some e =>
        dsimp only
        cases hk : e.holder with
        | none =>
          dsimp only
          rw [State.recycle_frame]
          refine ⟨id, ?_⟩
          intro e' he' hk'
          cases he'
          rw [hk] at hk'
          cases hk'
        | some j =>
          dsimp only; rw [State.recycle_frame]; dsimp only [State.freeSeat]; simp only [Four.get_set]
          refine ⟨?_, ?_⟩
          · intro h; split <;> simp_all
          · intro e' he' hk'; cases he'; rw [hk] at hk'; cases hk'; simp
    obtain ⟨h1, h2, h3, h4, h5⟩ := ih (s.retire a)
    refine ⟨?_, ?_, ?_, ?_, ?_⟩
    · intro n hn
      rcases List.mem_cons.1 hn with rfl | hn
      · exact h3 _ (by rw [hent]; simp)
      · exact h1 n hn
    · intro n hn
      rw [List.mem_cons, not_or] at hn
      rw [List.foldl_cons, h2 n hn.2, hslot, if_neg]; rintro ⟨-, h⟩; exact hn.1 h.symm
    · intro n hn; exact h3 n (by rw [hent]; split <;> simp_all)
    · intro k hk; exact h4 k ((hseat k).1 hk)
    · intro n e k hn he hk
      by_cases hna : a = n
      · subst hna; exact h4 k ((hseat k).2 e he hk)
      · rcases List.mem_cons.1 hn with h | hn
        · exact absurd h.symm hna
        · exact h5 n e k hn (by rw [hent, if_neg hna]; exact he) hk

end Sys2Proof.Machine
end

