-- ==== Sys2Proof/Laws/Tubes.lean ====
section
/-! SUPPORT. A change of one tube record and an evaluation, said once as the statements say them: the signal to the
channels and the walker (R37, R78), and the record an evaluation leaves (R175). -/

namespace Sys2Proof.Machine

/-! ## The candidates-changed signal at the walker -/

theorem State.testSeek_waiting (s : State) (n m : Fin 8) :
    (s.testSeek n).walker.waiting.get m = true ↔ s.walker.waiting.get m = true ∨
      (n = m ∧ (s.chan n).state = .idle ∧ 0 < (s.chan n).config.priority ∧ (s.chan n).exhausted = false) := by
  unfold State.testSeek
  dsimp only
  split
  · rename_i h
    simp only [Eight.get_set]
    by_cases hn : n = m
    · subst hn; simp [h]
    · simp [hn]
  · rename_i h
    constructor
    · exact .inl
    · rintro (h' | ⟨-, h'⟩)
      · exact h'
      · exact absurd h' h

theorem State.candidatesAt_seek (s : State) (n : Fin 8) :
    (s.candidatesAt n).walker.seek =
      s.walker.seek.map (fun k => if k.chan = n then { k with renew := true } else k) := by
  have key : ∀ s1 : State,
      (if (s1.chan n).exhausted then (s1.setChan n { s1.chan n with exhausted := false }).testSeek n
        else s1).walker.seek = s1.walker.seek := by
    intro s1
    split
    · rw [State.testSeek_frame]; rfl
    · rfl
  unfold State.candidatesAt
  dsimp only
  rw [key]
  cases h : s.walker.seek with
  | none => simp [h]
  | some k => by_cases hk : k.chan = n <;> simp [hk, h]

theorem State.candidatesAt_waiting (s : State) (n m : Fin 8) :
    (s.candidatesAt n).walker.waiting.get m = true ↔ s.walker.waiting.get m = true ∨
      (n = m ∧ (s.chan n).exhausted = true ∧ (s.chan n).state = .idle ∧ 0 < (s.chan n).config.priority) := by
  have key : ∀ s1 : State, s1.chans = s.chans → s1.walker.waiting = s.walker.waiting →
      ((if (s1.chan n).exhausted then (s1.setChan n { s1.chan n with exhausted := false }).testSeek n
        else s1).walker.waiting.get m = true ↔ s.walker.waiting.get m = true ∨
      (n = m ∧ (s.chan n).exhausted = true ∧ (s.chan n).state = .idle ∧ 0 < (s.chan n).config.priority)) := by
    intro s1 h1 h2
    have hc : s1.chan n = s.chan n := by simp [State.chan, h1]
    rw [hc]
    by_cases he : (s.chan n).exhausted = true
    · rw [if_pos he, State.testSeek_waiting]
      simp [h2, he]
    · rw [if_neg he]; simp [h2, he]
  unfold State.candidatesAt
  dsimp only
  split
  · exact key s rfl rfl
  · split
    · exact key _ rfl rfl
    · exact key s rfl rfl

/-- The signal marks the seek being served for renewal (R78). -/
theorem State.candidatesChanged_seek (s : State) :
    s.candidatesChanged.walker.seek = s.walker.seek.map (fun k => { k with renew := true }) := by
  simp only [State.candidatesChanged, eightNumbers, List.foldl_cons, List.foldl_nil, State.candidatesAt_seek]
  cases s.walker.seek with
  | none => rfl
  | some k =>
    obtain ⟨c, a, b, d, e, f, g⟩ := k
    match c with
    | 0 | 1 | 2 | 3 | 4 | 5 | 6 | 7 => rfl

/-- The channels that the signal sends to SEEKING wait (R37, R43). -/
theorem State.candidatesChanged_waiting (s : State) (m : Fin 8) :
    s.candidatesChanged.walker.waiting.get m = true ↔ s.walker.waiting.get m = true ∨
      ((s.chan m).exhausted = true ∧ (s.chan m).state = .idle ∧ 0 < (s.chan m).config.priority) := by
  simp only [State.candidatesChanged, eightNumbers, List.foldl_cons, List.foldl_nil, State.candidatesAt_waiting,
    State.candidatesAt_chan]
  match m with
  | 0 | 1 | 2 | 3 | 4 | 5 | 6 | 7 => simp

/-- The three equations of a signal, in the terms of the statements (R37, R43, R78). -/
theorem State.signalledChannel_of {s u : State} (hc : ∀ n, u.chan n = (s.chan n).signalled)
    (hs : u.walker.seek = s.walker.seek.map (fun k => { k with renew := true }))
    (hw : ∀ n, u.walker.waiting.get n = true ↔ s.walker.waiting.get n = true ∨
      ((s.chan n).exhausted = true ∧ (s.chan n).state = .idle ∧ 0 < (s.chan n).config.priority)) (n : Fin 8) :
    s.signalledChannel u n := by
  refine ⟨hc n, hw n, fun k _ => ?_⟩
  rw [hs]
  cases s.walker.seek with
  | none => simp
  | some j => simp only [Option.map_some, Option.some.injEq]; exact ⟨fun h => ⟨j, rfl, h.symm⟩, fun ⟨_, h, e⟩ => by subst h; exact e.symm⟩

/-- The candidates-changed signal reaches every channel (R37). -/
theorem State.candidatesChanged_signalled (s : State) (n : Fin 8) : s.signalledChannel s.candidatesChanged n :=
  State.signalledChannel_of s.candidatesChanged_chan s.candidatesChanged_seek s.candidatesChanged_waiting n

/-- What leaves channels and walker alone leaves each channel the same. -/
theorem State.sameChannel_of {s u : State} (hc : u.chans = s.chans) (hw : u.walker = s.walker) (n : Fin 8) :
    s.sameChannel u n := by
  refine ⟨by simp [State.chan, hc], by rw [hw], fun k _ => by rw [hw]⟩

/-! ## A tube that enters UNTESTED or RETEST -/

/-- A change that moves a tube into a claimable state from another (R37). -/
theorem State.changeTube_signals (s : State) (i : Nat) (f : Tube → Tube) (t : Tube) (ht : s.tube i = some t)
    (hm : t.state ≠ (f t).state) (hc : (f t).state.claimable = true) :
    (∀ n, (s.changeTube i f).chan n = (s.chan n).signalled) ∧
    (s.changeTube i f).walker.seek = s.walker.seek.map (fun k => { k with renew := true }) ∧
    ∀ n, (s.changeTube i f).walker.waiting.get n = true ↔ s.walker.waiting.get n = true ∨
      ((s.chan n).exhausted = true ∧ (s.chan n).state = .idle ∧ 0 < (s.chan n).config.priority) := by
  have hp : ∀ (b : Bool) (u : State), (if b then u.post .blocked i else u).chans = u.chans ∧
      (if b then u.post .blocked i else u).walker = u.walker := by
    intro b u; cases b <;> exact ⟨rfl, rfl⟩
  have hw : ∀ (b : Bool) (u : State) (p : Pos), (if b then u.postWatch p else u).chans = u.chans ∧
      (if b then u.postWatch p else u).walker = u.walker := by
    intro b u p
    cases b
    · exact ⟨rfl, rfl⟩
    · rw [if_pos rfl, State.postWatch_frame]; exact ⟨rfl, rfl⟩
  have hk : ∀ (u : State) (o : Census), (u.completionAfter o).chans = u.chans ∧
      (u.completionAfter o).walker = u.walker := by
    intro u o; rw [State.completionAfter_frame]; exact ⟨rfl, rfl⟩
  have hq : (decide (t.state ≠ (f t).state) && (f t).state.claimable) = true := by simp [hm, hc]
  unfold State.changeTube
  rw [ht]
  dsimp only
  simp only [State.chan, (hw _ _ _).1, (hw _ _ _).2, hq, if_true]
  have h1 := State.candidatesChanged_chan
  have h2 := State.candidatesChanged_waiting
  simp only [State.chan] at h1 h2
  refine ⟨fun n => ?_, ?_, fun n => ?_⟩
  · rw [h1, (hk _ _).1, (hp _ _).1]
  · rw [State.candidatesChanged_seek, (hk _ _).2, (hp _ _).2]
  · rw [h2, (hk _ _).1, (hk _ _).2, (hp _ _).1, (hp _ _).2]

/-- A change that moves a tube into a claimable state from another, in the terms of the statements. -/
theorem State.changeTube_signalsFrom (s : State) (i : Nat) (f : Tube → Tube) (t : Tube) (ht : s.tube i = some t)
    (hm : t.state ≠ (f t).state) (hc : (f t).state.claimable = true) : s.signalsFrom (s.changeTube i f) i := by
  obtain ⟨h1, h2, h3⟩ := s.changeTube_signals i f t ht hm hc
  refine ⟨fun j hj => ?_, State.signalledChannel_of h1 h2 h3, s.changeTube_completes i f, ?_⟩
  · rw [State.changeTube_tube, if_neg (Ne.symm hj)]
  · conv_lhs => rw [State.changeTube_frame]
    rw [show (s.changeTube i f).port = s.port by rw [State.changeTube_frame]]

/-! ## Evaluation -/

theorem depthMax_none (a : Option Nat) : depthMax a none = a := by cases a <;> rfl

/-- An evaluation, in the terms of the statements. -/
theorem State.evaluate_evaluates (s : State) (i : Nat) : s.evaluates (s.evaluate i) i := by
  have hst : (s.evaluate i).store = s.store := by rw [State.evaluate_frame]
  refine ⟨fun t ht => ?_, fun j hj => ?_, s.evaluate_completes i, ?_⟩
  · rw [State.evaluate_tube s i t ht i, if_pos rfl, hst]
    rfl
  · cases ht : s.tube i with
    | none => simp [State.evaluate, ht]
    | some t => rw [State.evaluate_tube s i t ht j, if_neg (Ne.symm hj)]
  · conv_lhs => rw [State.evaluate_frame, (s.evaluate_quiet i).1, (s.evaluate_quiet i).2]
    rw [show (s.evaluate i).clock = s.clock by rw [State.evaluate_frame], hst,
      show (s.evaluate i).seats = s.seats by rw [State.evaluate_frame],
      show (s.evaluate i).port = s.port by rw [State.evaluate_frame]]

/-- A change of an entry's status, in the terms of the statements. -/
theorem State.changeStatus_evaluates (s : State) (n : Nat) (e : Entry) :
    s.evaluates (s.changeStatus n e) e.tube ∧ (s.changeStatus n e).store = s.store.setEntry n e := by
  obtain ⟨h1, h2, -, -⟩ := State.evaluate_evaluates { s with store := s.store.setEntry n e } e.tube
  have hst : (s.changeStatus n e).store = s.store.setEntry n e := by rw [State.changeStatus_frame]
  have hw := State.watchTube_frame ({ s with store := s.store.setEntry n e }.evaluate e.tube) e.tube
  have htube : ∀ j, (s.changeStatus n e).tube j = ({ s with store := s.store.setEntry n e }.evaluate e.tube).tube j := by
    intro j; unfold State.changeStatus; rw [hw]; rfl
  have hst2 : ({ s with store := s.store.setEntry n e }.evaluate e.tube).store = s.store.setEntry n e := by
    rw [State.evaluate_frame]
  refine ⟨⟨fun t ht => ?_, fun j hj => ?_, s.changeStatus_completes n e, ?_⟩, hst⟩
  · rw [htube, h1 t ht, hst, hst2]
  · rw [htube, h2 j hj]; rfl
  · conv_lhs => rw [State.changeStatus_frame, (s.changeStatus_quiet n e).1, (s.changeStatus_quiet n e).2]
    rw [hst, show (s.changeStatus n e).clock = s.clock by rw [State.changeStatus_frame],
      show (s.changeStatus n e).seats = s.seats by rw [State.changeStatus_frame],
      show (s.changeStatus n e).port = s.port by rw [State.changeStatus_frame]]

end Sys2Proof.Machine
end

