-- ==== Sys2Proof/Laws/Watches.lean ====
section
/-! SUPPORT. The notices that the shared operations tell: a watched tube's (R40), the pool's (R155); and what is told
stays told through every later operation. -/

namespace Sys2Proof.Machine

/-- A watch slot that holds the position has its notice told (R40). -/
theorem State.postWatch_told (s : State) (p : Pos) (k : Fin 4) (h : s.map.watches.get k = some p) :
    (s.postWatch p).notices.told .watch k.val := by
  have key : ∀ (l : List (Fin 4)) (u : State), u.map = s.map → (k ∈ l ∨ u.notices.told .watch k.val) →
      (l.foldl (State.watchSlot p) u).notices.told .watch k.val := by
    intro l
    induction l with
    | nil => intro u _ hu; simpa using hu
    | cons a t ih =>
      intro u hm hu
      rw [List.foldl_cons]
      refine ih _ (by rw [State.watchSlot_frame]; exact hm) ?_
      rcases hu with hu | hu
      · rcases List.mem_cons.1 hu with rfl | hu
        · right
          unfold State.watchSlot
          rw [if_pos (by rw [hm]; exact h)]
          exact NoticeUnit.post_told _ _ _
        · exact .inl hu
      · exact .inr (told_of_kept (fun P hP => State.watchSlot_notices hP p u a) hu)
  exact key fourNumbers s rfl (.inl (by fin_cases k <;> simp [fourNumbers]))

/-- A change of a tube's state is watched (R40). -/
theorem State.changeTube_watched (s : State) (i : Nat) (f : Tube → Tube) (t : Tube) (ht : s.tube i = some t)
    (hm : t.state ≠ (f t).state) (hp : (f t).pos = t.pos) : s.watched (s.changeTube i f) i := by
  intro k u hu hk
  rw [ht] at hu
  cases hu
  have hb : ∀ (b : Bool) (u : State), (if b then u.post .blocked i else u).map = u.map := by
    intro b u; cases b <;> rfl
  have hc : ∀ (b : Bool) (u : State), (if b then u.candidatesChanged else u).map = u.map := by
    intro b u
    cases b
    · rfl
    · rw [if_pos rfl, State.candidatesChanged_frame]
  unfold State.changeTube
  rw [ht]
  simp only [ne_eq, hm, not_false_eq_true, decide_true, if_true]
  refine State.postWatch_told _ _ k ?_
  rw [hc, State.completionAfter_frame]
  simp only [hb, TubeMap.replace, hp]
  exact hk

/-- An event on a tube is watched (R40). -/
theorem State.watchTube_watched (s : State) (i : Nat) : s.watched (s.watchTube i) i := by
  intro k t ht hk
  unfold State.watchTube
  rw [ht]
  exact State.postWatch_told s _ k hk

/-- A change of an entry's status is watched (R40). -/
theorem State.changeStatus_watched (s : State) (n : Nat) (e : Entry) : s.watched (s.changeStatus n e) e.tube := by
  intro k t ht hk
  unfold State.changeStatus
  generalize hu : ({ s with store := s.store.setEntry n e } : State) = u
  have hut : u.tube e.tube = some t := by rw [← hu]; exact ht
  have h1 := u.evaluate_tube e.tube t hut e.tube
  rw [if_pos rfl] at h1
  refine State.watchTube_watched (u.evaluate e.tube) e.tube k _ h1 ?_
  rw [State.evaluate_frame, ← hu]
  exact hk

/-- A judgement leaves the pool warning armed exactly above the level (R155). -/
theorem State.judgePool_armed (s : State) :
    s.judgePool.store.warnArmed = decide (s.map.params.poolLevel < s.store.free.count) := by
  unfold State.judgePool
  by_cases h : s.store.free.count ≤ s.map.params.poolLevel
  · have h' : ¬ s.map.params.poolLevel < s.store.free.count := by omega
    cases hw : s.store.warnArmed <;> simp [h, h', hw, State.post]
  · have h' : s.map.params.poolLevel < s.store.free.count := by omega
    cases hw : s.store.warnArmed <;> simp [h, h', hw]

/-- A judgement that disarms the warning tells it (R155). -/
theorem State.judgePool_told (s : State) (h : s.store.warnArmed = true) (hu : s.judgePool.store.warnArmed = false) :
    s.judgePool.notices.told .pool 0 := by
  rw [State.judgePool_armed, decide_eq_false_iff_not] at hu
  unfold State.judgePool
  simp only [h, show s.store.free.count ≤ s.map.params.poolLevel by omega, decide_true, Bool.and_self, if_true]
  exact NoticeUnit.post_told _ _ _

/-! ## Which notices an operation can enter -/

/-- A change of a tube enters BLOCKED, CAMPAIGN_COMPLETE and WATCH notices alone (R19, R38, R40). -/
theorem State.changeTube_enters {s : State} {i : Nat} {f : Tube → Tube} {m : Notice}
    (h : m ∈ (s.changeTube i f).notices.pending) :
    m ∈ s.notices.pending ∨ m.cls = .blocked ∨ m.cls = .campaignComplete ∨ m.cls = .watch := by
  have hb : ∀ (b : Bool) (u : State), m ∈ (if b then u.post .blocked i else u).notices.pending →
      m ∈ u.notices.pending ∨ m.cls = .blocked := by
    intro b u hu
    cases b
    · exact .inl hu
    · exact NoticeUnit.post_enters hu
  have hc : ∀ (b : Bool) (u : State), (if b then u.candidatesChanged else u).notices = u.notices := by
    intro b u
    cases b
    · rfl
    · rw [if_pos rfl, State.candidatesChanged_frame]
  have hw : ∀ (b : Bool) (u : State) (p : Pos), m ∈ (if b then u.postWatch p else u).notices.pending →
      m ∈ u.notices.pending ∨ m.cls = .watch := by
    intro b u p hu
    cases b
    · exact .inl hu
    · exact State.postWatch_enters hu
  unfold State.changeTube at h
  split at h
  · exact .inl h
  · dsimp only at h
    rcases hw _ _ _ h with h | h
    · rw [hc] at h
      rcases State.completionAfter_enters h with h | h
      · rcases hb _ _ h with h | h
        · exact .inl h
        · exact .inr (.inl h)
      · exact .inr (.inr (.inl h))
    · exact .inr (.inr (.inr h))

/-- An evaluation enters PLUG_CALL besides (R176). -/
theorem State.evaluate_enters {s : State} {i : Nat} {m : Notice} (h : m ∈ (s.evaluate i).notices.pending) :
    m ∈ s.notices.pending ∨ m.cls = .blocked ∨ m.cls = .campaignComplete ∨ m.cls = .watch ∨ m.cls = .plugCall := by
  unfold State.evaluate at h
  split at h
  · exact .inl h
  · dsimp only at h
    split at h
    · rcases NoticeUnit.post_enters h with h | h
      · rcases State.changeTube_enters h with h | h | h | h <;> simp [h]
      · simp [h]
    · rcases State.changeTube_enters h with h | h | h | h <;> simp [h]

/-- A change of an entry's status enters no other class than an evaluation (R40, R175). -/
theorem State.changeStatus_enters {s : State} {n : Nat} {e : Entry} {m : Notice}
    (h : m ∈ (s.changeStatus n e).notices.pending) :
    m ∈ s.notices.pending ∨ m.cls = .blocked ∨ m.cls = .campaignComplete ∨ m.cls = .watch ∨ m.cls = .plugCall := by
  unfold State.changeStatus State.watchTube at h
  split at h
  · exact State.evaluate_enters (s := { s with store := s.store.setEntry n e }) h
  · rcases State.postWatch_enters h with h | h
    · exact State.evaluate_enters (s := { s with store := s.store.setEntry n e }) h
    · simp [h]

end Sys2Proof.Machine
end

