-- ==== Sys2Proof/Laws/Reports.lean ====
section
/-! SUPPORT. What a REPORT_TAKE does with the report the engine handles, and what a reload leaves, said once. -/

namespace Sys2Proof.Machine

/-- A report the engine handles reaches its channel, from the state with the report out of its queue (R101). -/
theorem State.handles_take {s s0 : State} {x : TakeExtent} {n : Fin 8} {r : Report} (hh : s.held = false)
    (h : s.handles x n r s0) : exec (.reportTake x) s = .next (s0.handleReport n r x) := by
  rcases h with ⟨h1, h2, h3, rest, h4, h5⟩ | ⟨h1, rfl⟩
  · simp only [exec, execReportTake, State.whenRunning_running hh, State.reportTake, h1, h3, h4, h2]
    rw [h5]
    rfl
  · simp only [exec, execReportTake, State.whenRunning_running hh, State.reportTake, h1, State.goOn]

/-- That state differs from the one before in the queues, the engine's pointer and the report in hand alone. -/
theorem State.handles_kept {s s0 : State} {x : TakeExtent} {n : Fin 8} {r : Report} (h : s.handles x n r s0) :
    s0.clock = s.clock ∧ s0.held = s.held ∧ s0.map = s.map ∧ s0.store = s.store ∧ s0.freqs = s.freqs ∧
    s0.seats = s.seats ∧ s0.chans = s.chans ∧ s0.walker = s.walker ∧ s0.txs = s.txs ∧
    s0.notices = s.notices := by
  rcases h with ⟨-, -, -, rest, -, rfl⟩ | ⟨-, rfl⟩ <;> exact ⟨rfl, rfl, rfl, rfl, rfl, rfl, rfl, rfl, rfl, rfl⟩

/-- A reload leaves everything but the channel's timer (R114). -/
theorem State.reloadTimer_eq (s : State) (n : Fin 8) (b : Bool) :
    s.reloadTimer n b = { s with
      chans := s.chans.set n
        { s.chan n with
          timer := if b = true ∧ (s.chan n).timer.mode = .running then (s.chan n).timer.load (s.chan n).config s.clock
            else (s.chan n).timer } } := by
  unfold State.reloadTimer
  by_cases h : b = true ∧ (s.chan n).timer.mode = .running
  · rw [if_pos h, if_pos (by simp [h])]
    rfl
  · rw [if_neg h, if_neg (by simp only [Bool.and_eq_true, decide_eq_true_eq]; exact h)]
    have hs : s.chans.set n { s.chan n with timer := (s.chan n).timer } = s.chans := by
      apply Eight.ext_get
      intro i
      rw [Eight.get_set]
      split
      · subst_vars; rfl
      · rfl
    rw [hs]

end Sys2Proof.Machine
end

