-- ==== Sys2Proof/Laws/Requests.lean ====
section
/-! SUPPORT. The fields of a request's body, read off a list of bytes: one lemma for each kind of field of 11.1. -/

namespace Sys2Proof.Machine

/-- A value carried behind its presence byte is read. -/
theorem optionField_of_carried {body : List Byte} {start width : Nat} {o : Option Nat} (h : carried body start width o) :
    optionField body start width = some o := by
  rcases h with ⟨h, rfl⟩ | ⟨h, rfl⟩ <;> simp [optionField, h]

/-- A flag of the first byte. -/
theorem flagField_zero (a : Byte) (l : List Byte) (k : Nat) (hk : k < 8) : flagField (a :: l) 0 k = a.getLsbD k := by
  simp only [flagField, Nat.div_eq_of_lt hk, Nat.mod_eq_of_lt hk, Nat.add_zero, field_one]
  rfl

/-- A flag further on. -/
theorem flagField_succ (a : Byte) (l : List Byte) (start k : Nat) :
    flagField (a :: l) (start + 1) k = flagField l start k := by
  unfold flagField
  rw [show start + 1 + k / 8 = (start + k / 8) + 1 by omega]
  rfl

/-- A flag set as a number holds its flags at its bits. -/
theorem flagsNat_bits : ∀ (l : List Bool) (k : Nat), (flagsNat l).testBit k = l.getD k false
  | [], k => by simp [flagsNat]
  | b :: t, 0 => by cases b <;> simp [flagsNat, Nat.testBit_zero]
  | b :: t, k + 1 => by
    have h : flagsNat (b :: t) / 2 = flagsNat t := by
      cases b
      · simp [flagsNat]
      · simp only [flagsNat, Bool.toNat_true]; omega
    rw [Nat.testBit_succ, h, flagsNat_bits t k]
    rfl

/-- A flag set read from a body holds each flag at its bit. -/
theorem flagsField_bits (body : List Byte) (start n k : Nat) (hk : k < n) :
    (flagsField body start n).testBit k = flagField body start k := by
  rw [flagsField, flagsNat_bits]
  simp [hk]

/-- A bound of the first two bytes, in two's complement. -/
theorem signedField_zero (a b : Byte) (l : List Byte) : signedField (a :: b :: l) 0 = (a ++ b).toInt := by
  have h : (a ++ b).toNat = a.toNat * 256 + b.toNat := by
    rw [BitVec.toNat_append, Nat.shiftLeft_eq, Nat.mul_comm, ← Nat.two_pow_add_eq_or_of_lt b.isLt]
  rw [BitVec.toInt_eq_toNat_cond, h]
  simp only [signedField, field_two]
  split <;> split <;> simp_all <;> omega

/-- A bound further on. -/
theorem signedField_succ (a : Byte) (l : List Byte) (start : Nat) :
    signedField (a :: l) (start + 1) = signedField l start := rfl

/-- A bound is its two bytes in two's complement, wherever it stands. -/
theorem signedField_eq (body : List Byte) (k : Nat) :
    signedField body k = (BitVec.ofNat 16 (field body k 2)).toInt := by
  have : field body k 2 < 65536 := by
    simp only [field]
    generalize hl : (body.drop k).take 2 = l
    have : l.length ≤ 2 := by rw [← hl]; simp
    match l, this with
    | [], _ => simp [bytesNat]
    | [x], _ => simp [bytesNat]; omega
    | [x, y], _ => simp [bytesNat]; omega
  rw [BitVec.toInt_eq_toNat_cond]
  simp only [signedField, BitVec.toNat_ofNat]
  rw [Nat.mod_eq_of_lt (by omega)]
  split <;> split <;> simp_all <;> omega

/-- A tube name of the first three bytes (11.1). -/
theorem nameField_zero {k a b : Byte} {l : List Byte} {name : TubeName}
    (h0 : k = 0#8 → name = .position { row := a.toNat, col := b.toNat })
    (h1 : k = 1#8 → name = .index (256 * a.toNat + b.toNat)) (h2 : 1 < k.toNat → name = .other k.toNat) :
    nameField (k :: a :: b :: l) 0 = name := by
  simp only [nameField, posField, field_succ, field_one, field_two]
  split
  · rename_i h
    rw [h0 (by apply BitVec.eq_of_toNat_eq; simpa using h)]
  · rename_i h
    rw [h1 (by apply BitVec.eq_of_toNat_eq; simpa using h), Nat.mul_comm]
  · rename_i x y
    rw [h2 (by simp at x y; omega)]

end Sys2Proof.Machine
end

