-- ==== Sys2Proof/Laws/Runs.lean ====
section
/-! SUPPORT. What a run of DEFINE_TUBES does (R5): the columns it declares and skips, and the one run of signals. -/

namespace Sys2Proof.Machine

/-- A second signal finds the exhausted flag clear (R37). -/
theorem Channel.signalled_twice (c : Channel) : c.signalled.signalled = c.signalled := by
  unfold Channel.signalled
  split
  · rw [if_neg (by simp)]
  · rfl

/-- A run of signals is as one (R37, R78). -/
theorem State.signalledChannel_trans {s u v : State} {m : Fin 8} (h : s.signalledChannel u m)
    (h' : u.signalledChannel v m) : s.signalledChannel v m := by
  obtain ⟨a, b, c⟩ := h
  obtain ⟨a', b', c'⟩ := h'
  refine ⟨by rw [a', a, Channel.signalled_twice], ?_, fun k hk => ?_⟩
  · rw [b', b, a]
    have : (s.chan m).signalled.exhausted = false := by
      unfold Channel.signalled; split <;> simp_all
    simp [this]
  · rw [c' k hk]
    constructor
    · rintro ⟨j, h1, rfl⟩
      obtain ⟨i, h2, rfl⟩ := (c j hk).1 h1
      exact ⟨i, h2, rfl⟩
    · rintro ⟨i, h1, rfl⟩
      exact ⟨_, (c { i with renew := true } hk).2 ⟨i, h1, rfl⟩, rfl⟩

/-- One more declaration of a run (R5), in LAYOUT. -/
theorem State.declares_step {s u : State} {row zone : Nat} {pl : Bool} {free : List Nat} {c : Nat}
    (h : s.declares u row zone pl free) (hp : u.port = s.port) (hl : s.map.phase = .layout) (hc : c < 256)
    (hn : c ∉ free) :
    s.declares (u.declare { row, col := c } zone pl) row zone pl (free ++ [c]) ∧
      (u.declare { row, col := c } zone pl).port = s.port := by
  obtain ⟨h1, h2, h3, h4, h5⟩ := h
  have hphase : u.map.phase = .layout := by rw [h5]; exact hl
  let m : TubeMap := { u.map with
          directory := sparseSet none u.map.directory (Pos.cell { row, col := c }) (some u.map.tubes.length)
          tubes := u.map.tubes ++ [newTube { row, col := c } zone pl]
          census := u.map.census.enter (newTube { row, col := c } zone pl) }
  have hd : u.declare { row, col := c } zone pl = ({ u with map := m } : State).candidatesChanged := by
    unfold State.declare
    dsimp only
    congr 1
    unfold State.completionAfter
    split
    · rfl
    · unfold State.checkCompletion; rw [if_pos]; show u.map.phase ≠ .active; rw [hphase]; simp
  rw [hd]
  have hf := State.candidatesChanged_frame ({ u with map := m } : State)
  have hm : ({ u with map := m } : State).candidatesChanged.map = m := by rw [hf]
  have hs := State.candidatesChanged_signalled ({ u with map := m } : State)
  have hport : ({ u with map := m } : State).candidatesChanged.port = s.port := by rw [hf]; exact hp
  refine ⟨⟨?_, ?_, ?_, ?_, ?_⟩, hport⟩
  · rw [hm]; simp only [m, h1, List.map_append, List.append_assoc]; rfl
  · intro p hpg
    rw [hm]
    simp only [m, TubeMap.at, hpg, if_true]
    rw [sparseGet_set]
    have := h2 p hpg
    simp only [TubeMap.at, hpg, if_true] at this
    rw [this]
    simp only [Pos.inGrid, Bool.and_eq_true, decide_eq_true_eq] at hpg
    by_cases hq : p.row = row ∧ p.col = c
    · obtain ⟨h6, h7⟩ := hq
      rw [if_pos (by simp [Pos.cell, h6, h7]), if_pos (by simp [h6, h7]), h7, h1, List.idxOf_append_of_notMem hn]
      simp
    · rw [if_neg (by simp only [Pos.cell]; omega)]
      by_cases h8 : p.row = row ∧ p.col ∈ free
      · rw [if_pos h8, if_pos ⟨h8.1, by simp [h8.2]⟩, List.idxOf_append_of_mem h8.2]
      · rw [if_neg h8, if_neg]
        rintro ⟨h9, h10⟩
        simp only [List.mem_append, List.mem_singleton] at h10
        rcases h10 with h10 | h10
        · exact h8 ⟨h9, h10⟩
        · exact hq ⟨h9, h10⟩
  · simp
  · intro _ n
    by_cases hz : free = []
    · obtain ⟨h6, h7⟩ := h3 hz
      have := hs n
      simp only [State.signalledChannel, State.chan] at this ⊢
      simpa [h6, h7] using this
    · exact State.signalledChannel_trans (h4 hz n) (hs n)
  · rw [hf]
    obtain ⟨_, _, _, ⟨_, _, _, _, _, _, _, _, _⟩, _, _, _, _, ⟨_, _, _, _, _⟩, _, _, _, _, _, _, _, _⟩ := u
    simp only [State.mk.injEq, TubeMap.mk.injEq, Walker.mk.injEq, true_and, and_true] at h5
    simp only [State.mk.injEq, TubeMap.mk.injEq, Walker.mk.injEq, m, true_and, and_true]
    tauto

/-- How a run stands that began at `s`, has visited the columns `seen` and declared those of `free` (R5). -/
structure RunStands (s : State) (row zone : Nat) (planned : Bool) (r : Run) (seen free : List Nat) : Prop where
  declares : s.declares r.state row zone planned free
  port : r.state.port = s.port
  declared : r.declared = free.length
  skipped : r.skipped = seen.length - free.length
  first : r.first = if free = [] then none else some s.map.tubes.length
  full : r.full = false
  sub : ∀ c ∈ free, c ∈ seen
  le : free.length ≤ seen.length

/-- A run that begins (R5). -/
theorem RunStands.start (s : State) (row zone : Nat) (planned : Bool) :
    RunStands s row zone planned { state := s, declared := 0, skipped := 0, first := none, full := false } [] [] where
  declares := ⟨by simp, fun p _ => by simp, fun _ => ⟨rfl, rfl⟩, fun h => absurd rfl h, rfl⟩
  port := rfl
  declared := rfl
  skipped := rfl
  first := rfl
  full := rfl
  sub := by simp
  le := by simp

/-- The run over further columns, with room for every free one (R5). -/
theorem RunStands.visit {s : State} {row zone : Nat} {planned : Bool} (hl : s.map.phase = .layout) (hr : row < 256)
    {cols : List Nat} {r : Run} {seen free : List Nat} (h : RunStands s row zone planned r seen free)
    (hlt : ∀ c ∈ seen ++ cols, c < 256) (hnd : (seen ++ cols).Nodup)
    (hroom : s.map.tubes.length +
      (free ++ cols.filter (fun c => (s.map.at { row, col := c }).isNone)).length ≤ 32768) :
    RunStands s row zone planned (cols.foldl (Run.visit row zone planned) r) (seen ++ cols)
      (free ++ cols.filter (fun c => (s.map.at { row, col := c }).isNone)) := by
  induction cols generalizing r seen free with
  | nil => simpa using h
  | cons c t ih =>
    have hc : c < 256 := hlt c (by simp)
    have hcs : c ∉ seen := by
      intro hm
      rw [List.nodup_append] at hnd
      exact hnd.2.2 c hm c (by simp) rfl
    have hat : r.state.map.at { row, col := c } = s.map.at { row, col := c } := by
      rw [h.declares.2.1 _ (by simp [Pos.inGrid, hr, hc]), if_neg]
      rintro ⟨-, hm⟩
      exact hcs (h.sub _ hm)
    have hlen : r.state.map.tubes.length = s.map.tubes.length + free.length := by rw [h.declares.1]; simp
    have hle := h.le
    rw [List.foldl_cons]
    cases ha : s.map.at { row, col := c } with
    | some i =>
      have hv : Run.visit row zone planned r c = { r with skipped := r.skipped + 1 } := by
        simp [Run.visit, h.full, hat, ha]
      have hs : RunStands s row zone planned { r with skipped := r.skipped + 1 } (seen ++ [c]) free :=
        { h with
          skipped := by simp only [h.skipped, List.length_append, List.length_singleton]; omega
          sub := fun x hx => by simp [h.sub x hx]
          le := by simp; omega }
      rw [hv]
      simpa [List.filter_cons, ha] using
        ih hs (by simpa using hlt) (by simpa using hnd) (by simpa [List.filter_cons, ha] using hroom)
    | none =>
      have hroom2 : s.map.tubes.length + free.length + 1 ≤ 32768 := by
        simp [ha] at hroom
        omega
      have hstep := State.declares_step (zone := zone) (pl := planned) (c := c) h.declares h.port hl hc
        (fun hm => hcs (h.sub _ hm))
      have hs : RunStands s row zone planned { r with
          state := r.state.declare { row, col := c } zone planned
          declared := r.declared + 1
          first := some (r.first.getD r.state.map.tubes.length) } (seen ++ [c]) (free ++ [c]) :=
        { declares := hstep.1
          port := hstep.2
          declared := by simp [h.declared]
          skipped := by simp only [h.skipped, List.length_append, List.length_singleton]; omega
          first := by
            dsimp only
            rw [h.first, hlen]
            by_cases hz : free = [] <;> simp [hz]
          full := h.full
          sub := fun x hx => by
            simp only [List.mem_append] at hx ⊢
            exact hx.imp_left (h.sub x)
          le := by simp; omega }
      have hv : Run.visit row zone planned r c = { r with
          state := r.state.declare { row, col := c } zone planned
          declared := r.declared + 1
          first := some (r.first.getD r.state.map.tubes.length) } := by
        simp only [Run.visit, h.full, hat, ha, Config.tubeLimit]
        rw [if_neg (by simp), if_pos (by omega)]
      rw [hv]
      simpa [List.filter_cons, ha] using ih hs (by simpa using hlt) (by simpa using hnd)
        (by simpa [List.filter_cons, ha, Nat.add_assoc, Nat.add_comm] using hroom)

/-- A run that has met the limit visits nothing more (R5). -/
theorem Run.visit_full (row zone : Nat) (planned : Bool) (l : List Nat) (r : Run) (h : r.full = true) :
    l.foldl (Run.visit row zone planned) r = r := by
  induction l with
  | nil => rfl
  | cons a t ih => rw [List.foldl_cons, show Run.visit row zone planned r a = r by simp [Run.visit, h], ih]

end Sys2Proof.Machine
end

