-- ==== Sys2Proof/WellFormed.lean ====
section
/-! DEFINITION. Which commands can come: every field fits the bytes that carry it (R194, R195, 11.1), and every
request has the variant its row stands for. The range checks of R181 are not here: the part itself makes them. -/

namespace Sys2Proof

open Machine

/-- One unsigned byte. -/
def fits1 (n : Nat) : Bool := n < 256

/-- Two unsigned bytes. -/
def fits2 (n : Nat) : Bool := n < 65536

/-- A signed 16-bit number. -/
def fitsSigned (i : Int) : Bool := -32768 ≤ i && i ≤ 32767

/-- A field that is absent or fits. -/
def fitsOption (f : Nat → Bool) : Option Nat → Bool
  | none => true
  | some n => f n

/-- A role code of four bits (R194). -/
def Machine.Requester.wf (rq : Requester) : Bool := rq.role < 16

/-- A position of two bytes. -/
def Machine.Pos.wf (p : Pos) : Bool := fits1 p.row && fits1 p.col

/-- A tube name of three bytes (11.1): a selector other than 00h and 01h is the third form. -/
def Machine.TubeName.wf : TubeName → Bool
  | .position p => p.wf
  | .index i => fits2 i
  | .other selector => 2 ≤ selector && fits1 selector

/-- An entry reference of three bytes. -/
def Machine.EntryRef.wf (r : EntryRef) : Bool := fits2 r.number && fits1 r.issue

/-- Four signed bounds. -/
def Machine.Bounds.wf (b : Bounds) : Bool :=
  fitsSigned b.rowLo && fitsSigned b.rowHi && fitsSigned b.colLo && fitsSigned b.colHi

/-- The nine values of SET_CAMPAIGN in their widths. -/
def Machine.CampaignFields.wf (f : CampaignFields) : Bool :=
  fitsOption fits2 f.length && fitsOption fits1 f.plugLimit && fitsOption fits1 f.tolerance &&
  fitsOption fits1 f.mergeWindow && fitsOption fits1 f.growth && fitsOption fits1 f.attemptLimit &&
  fitsOption fits2 f.overtravel && fitsOption fits1 f.holdLimit && fitsOption fits2 f.poolLevel

/-- The nine values of SET_CHANNEL_CAL in their widths. -/
def Machine.CalFields.wf (f : CalFields) : Bool :=
  fitsOption fits2 f.scale && f.rotation.toList.all (fitsOption fits2) && f.factor.toList.all (fitsOption fits2)

/-- The fields of CONFIGURE_CHANNEL in their widths. -/
def Machine.ConfigFields.wf (f : ConfigFields) : Bool :=
  fits1 f.face && f.window.wf && fits1 f.majorAxis && fits1 f.startCorner && fits1 f.priority &&
  fits1 f.stallTick && fits1 f.stallReload

/-- A point of a curve: phase in two bytes, depth in one. -/
def Machine.CurvePoint.wf (p : CurvePoint) : Bool := fits2 p.phase && fits1 p.depth

/-- Bytes of a request transfer (R179): some arrive, or the transfer ends, or both. -/
def Machine.Transfer.wf (t : Transfer) : Bool := t.ends || !t.bytes.isEmpty

/-- A command that can come. -/
def Instr.wf : Instr → Bool
  | .powerOn | .reset | .resetEnd | .overrun | .commandComplete | .clearLayoutTube | .rolloverTube
  | .planRegionTube | .findTubeVisit | .reportTake _ | .interlockAssertion | .wbholdRise | .walkerChoice
  | .walkerExamine | .claimRequest => true
  | .dataGapMark _ | .overtravelMark _ | .messageSent _ | .stallExpiry _ | .holdTimerExpiry _
  | .syncWordFound _ _ | .stallTimerTick _ | .wbholdSample _ => true
  | .requestTransferRefused transfer => transfer.wf
  | .readTransfer count => 1 ≤ count
  | .defineTubes rq row first last step zone _ =>
    rq.wf && fits1 row && fits1 first && fits1 last && fits1 step && fits1 zone
  | .clearLayout rq | .openCampaign rq | .closeCampaign rq | .newCampaign rq | .prepareLayout rq
  | .interlockClear rq | .releaseEntry rq | .readCensus rq | .readStatus rq | .takeNotice rq => rq.wf
  | .setLandmarks rq positions => rq.wf && fits1 positions.length && positions.all fits2
  | .setCampaign rq f => rq.wf && f.wf
  | .loadCurve rq freq threshold points =>
    rq.wf && fits1 freq && fits2 threshold && fits1 points.length && points.all CurvePoint.wf
  | .planRegion rq region action => rq.wf && region.wf && fits1 action
  | .configureChannel rq ch f => rq.wf && fits1 ch && f.wf
  | .setChannelCal rq ch f => rq.wf && fits1 ch && f.wf
  | .setKeepout rq region _ bounds => rq.wf && fits1 region && bounds.wf
  | .setClearance rq value => rq.wf && fits1 value
  | .startChannel rq ch | .stopChannel rq ch | .abandon rq ch | .resume rq ch | .channelReset rq ch
  | .readChannel rq ch => rq.wf && fits1 ch
  | .assignTube rq ch name => rq.wf && fits1 ch && name.wf
  | .setLink rq link policy _ _ => rq.wf && fits1 link && fits1 policy
  | .restartLink rq link | .readLink rq link => rq.wf && fits1 link
  | .plugTube rq name | .unblockTube rq name | .requestRetest rq name | .readTube rq name => rq.wf && name.wf
  | .submitCall rq ref code depth => rq.wf && ref.wf && fits1 code && fits1 depth
  | .reviewDone rq name _ => rq.wf && name.wf
  | .takeEntry rq ref | .readEntry rq ref => rq.wf && ref.wf
  | .resolveEntry rq code depth => rq.wf && fits1 code && fits1 depth
  | .findTube rq start _ => rq.wf && start.wf
  | .setNoticeLevel rq cls level => rq.wf && fits1 cls && fits1 level
  | .setFloor rq floor => rq.wf && fits1 floor
  | .setWatch rq slot position =>
    rq.wf && fits1 slot &&
      match position with
      | none => true
      | some p => p.wf
  | .headerCheck _ bytes => bytes.length ≤ 4
  | .frameComplete _ bytes => bytes.length ≤ 257

end Sys2Proof
end

