-- ==== Sys2Proof/Tests/Slice0.lean ====
section
/-! SUPPORT. The model's own tests. Three parts: a term that each check of `Instr.wf` refuses; the worked examples of
spec/, one step each, their figures taken from the spec; and for every statement with premises a concrete state and
operands that meet them (`witness_…`), clause by clause. -/

namespace Sys2Proof.Tests

open Sys2Proof.Machine

/-! ## Small states -/

/-- The state that a command leaves. -/
def after (c : Instr) (s : State) : State :=
  match exec c s with
  | .next t => t
  | .fault _ => s
  | .refused _ => s

def planner : Requester := { role := 1, seat := 0 }
def crew : Requester := { role := 2, seat := 0 }
def primary : Requester := { role := 3, seat := 0 }
def secondary : Requester := { role := 4, seat := 0 }
def resolver : Requester := { role := 5, seat := 1 }

/-- A phase in force. -/
def inPhase (p : Phase) (s : State) : State := { s with map := { s.map with phase := p } }

def active : State := inPhase .active State.reset

def spot : Pos := { row := 3, col := 4 }

/-- A planned tube at 003/004 in a state. -/
def tubeIn (x : TubeState) : Tube := { newTube spot 2 true with state := x }

/-- The part with that one tube, of index 0. -/
def withTube (t : Tube) (s : State) : State :=
  { s with map := { s.map with directory := [(t.pos.cell, some 0)], tubes := [t], census := Census.zero.enter t } }

def claim : Claim :=
  { tube := 0, pos := spot, face := .inlet, pass := 1, prior := .untested, farEnd := false, dataGap := false }

/-- A stall timer with a count left. -/
def timerAt (n : Nat) : StallTimer := { mode := .running, count := n, tick := .one, nextTick := 1000 }

/-- Channel 2 in a state, with the claim on tube 0 and a running timer. -/
def withPass (x : ChanState) (s : State) : State :=
  s.setChan 2 { s.chan 2 with state := x, claim := some claim, timer := timerAt 30 }

/-- Channel 2 in a state, without a claim. -/
def withChan (x : ChanState) (s : State) : State := s.setChan 2 { s.chan 2 with state := x }

/-- An active campaign with tube 0 in one state and channel 2 in a pass on it. -/
def pass (x : ChanState) (y : TubeState) : State :=
  withPass x (withTube { tubeIn y with claim := some 2 } active)

def measured : Measured :=
  { axial := 5896, extent := 4, phase := 900, amplitude := 300, saturated := false, depth := 37, landmark := .tsi,
    offset := 5896 }

/-- An entry of tube 0 in a status. -/
def entryIn (x : EntryStatus) : Entry :=
  { tube := 0, freq := 0, measured, sightings := 1, firstPass := 1, status := x, primary := none, secondary := none,
    resolution := none, outcome := none, reference := none, holder := none }

/-- Entry 0 in use, with issue number 1. -/
def withEntry (e : Entry) (s : State) : State :=
  { s with
    store :=
      { s.store with pool := [(0, { issue := 1, content := some e })], free := { fresh := 1, returned := [] } } }

def ref : EntryRef := { number := 0, issue := 1 }

/-- Tube 0 in a state with entry 0 in its list. -/
def review (x : TubeState) (e : Entry) : State :=
  withEntry e (withTube { tubeIn x with entries := [0] } active)

/-- A long command in flight. -/
def running (w : Work) (s : State) : State := s.begin w

/-- A report from the link of its channel. -/
def report (k : ReportKind) (payload : List Byte) : Report := { kind := k, payload, chan := 2 }

/-- The echo bytes of the claim. -/
def echo : List Byte := [3#8, 4#8, 0#8, 1#8]

/-- A report in the queue of link 2. -/
def withReport (r : Report) (s : State) : State := s.setLinkRx 2 { s.link 2 with queue := [r] }

/-! ## Ill-formed terms that `Instr.wf` refuses -/

theorem test_wf_good : Instr.wf (.defineTubes planner 0 1 9 2 3 true) = true := by decide
theorem test_wf_role : Instr.wf (.readCensus { role := 16, seat := 0 }) = false := by decide
theorem test_wf_byte : Instr.wf (.startChannel planner 256) = false := by decide
theorem test_wf_two_bytes : Instr.wf (.loadCurve planner 1 65536 []) = false := by decide
theorem test_wf_signed :
    Instr.wf (.planRegion planner { rowLo := -32769, rowHi := 0, colLo := 0, colHi := 0 } 0) = false := by decide
theorem test_wf_action :
    Instr.wf (.planRegion planner { rowLo := 0, rowHi := 0, colLo := 0, colHi := 0 } 256) = false := by decide
theorem test_wf_position : Instr.wf (.findTube planner { row := 256, col := 0 } 0) = false := by decide
theorem test_wf_selector : Instr.wf (.readTube planner (.other 1)) = false := by decide
theorem test_wf_index : Instr.wf (.readTube planner (.index 65536)) = false := by decide
theorem test_wf_entry : Instr.wf (.readEntry planner { number := 0, issue := 256 }) = false := by decide
theorem test_wf_params : Instr.wf (.setCampaign planner
    { length := some 65536, plugLimit := none, tolerance := none, mergeWindow := none, growth := none,
      attemptLimit := none, overtravel := none, holdLimit := none, poolLevel := none }) = false := by decide
theorem test_wf_cal : Instr.wf (.setChannelCal planner 0
    { scale := none, rotation := Four.fill (some 65536), factor := Four.fill none }) = false := by decide
theorem test_wf_points : Instr.wf (.loadCurve planner 1 1 [{ phase := 0, depth := 256 }]) = false := by decide
theorem test_wf_list : Instr.wf (.setLandmarks planner (List.replicate 256 0)) = false := by decide +kernel
theorem test_wf_watch : Instr.wf (.setWatch planner 0 (some { row := 0, col := 256 })) = false := by decide
theorem test_wf_read : Instr.wf (.readTransfer 0) = false := by decide
theorem test_wf_no_transfer : Instr.wf (.requestTransferRefused ⟨[], false⟩) = false := by decide
theorem test_wf_header : Instr.wf (.headerCheck 0 (List.replicate 5 0#8)) = false := by decide
theorem test_wf_frame : Instr.wf (.frameComplete 0 (List.replicate 258 0#8)) = false := by
  decide +kernel

/-! ## Check codes

The check values of the two codes over the ASCII digits 1 to 9, from the published catalogue of CRC parameters
(PRESUMED: not in the spec, which names generator, start value and bit order in R194 and R195). -/

def digits : List Byte := [0x31#8, 0x32#8, 0x33#8, 0x34#8, 0x35#8, 0x36#8, 0x37#8, 0x38#8, 0x39#8]

theorem test_crc16_check_value : crc16 digits = 0x29B1 := by decide +kernel
theorem test_crc8_check_value : crc8 digits = 0xF4 := by decide +kernel

/-! ## Worked examples of chapter 1 -/

/-- The port free again, the response read. -/
def read (s : State) : State := { s with port := Port.clear }

/-- The three runs of 1.3.1. -/
def runA : State := read (after (.defineTubes planner 0 1 9 2 3 true) State.reset)
def runB : State := read (after (.defineTubes planner 1 0 10 2 3 false) runA)
def runC : State := after (.defineTubes planner 0 5 11 2 4 true) runB

/-- 1.3.1, request C: 1 declared, 3 skipped, first index 11. -/
theorem test_define_tubes_run_c :
    runC.port.response.map Response.body = some [0#8, 1#8, 0#8, 3#8, 1#8, 0#8, 11#8] := by decide

/-- 1.3.1 after C: zone 3 kept at 000/005, zone 4 at 000/011; UNTESTED 12, planned non-terminal 6. -/
theorem test_define_tubes_records :
    (runC.map.at { row := 0, col := 5 }).map (fun i => (runC.tube i).map Tube.zone) = some (some 3) ∧
    (runC.map.at { row := 0, col := 11 }).map (fun i => (runC.tube i).map Tube.zone) = some (some 4) ∧
    runC.map.census.untested = 12 ∧ runC.map.census.plannedOpen = 6 := by decide

/-- CLEAR_LAYOUT_TUBE after 1.3.1: the tube at 000/011 goes first. -/
theorem test_clear_layout_tube :
    let s := after .clearLayoutTube (running (.clearLayout 0) (read runC))
    s.map.tubes.length = 11 ∧ s.map.at { row := 0, col := 11 } = none ∧ s.map.census.plannedOpen = 5 := by decide

/-- 1.7.1, tubes 7 and 30: the history takes the maximum; PLUGGED stays with its campaign. -/
theorem test_rollover_tube :
    ({ tubeIn .plugCalled with worstFinal := some 44, history := some 31, passes := 1 } : Tube).rolled =
      { tubeIn .untested with history := some 44, planned := false } ∧
    (({ tubeIn .plugged with history := some 47, plugCampaign := some 3 } : Tube).rolled).plugCampaign = some 3 := by
  decide

/-- R16: SET passes over a planned tube, CLEAR clears its flag and counts it. -/
theorem test_plan_region_tube :
    let whole : Rect := { rowLo := 0, rowHi := 255, colLo := 0, colHi := 255 }
    let s := withTube (tubeIn .untested) State.reset
    ((after .planRegionTube (running (.planRegion whole .set 0 0) s)).port.work =
      some (.planRegion whole .set 773 0)) ∧
    ((after .planRegionTube (running (.planRegion whole .clear 0 0) s)).port.work =
      some (.planRegion whole .clear 773 1)) := by decide

/-- R9, R10, R19: OPEN_CAMPAIGN with one terminal planned tube posts CAMPAIGN_COMPLETE at once. -/
theorem test_open_campaign :
    let s := withTube (tubeIn .cleared) State.reset
    let t := after (.openCampaign planner) { s with map := { s.map with landmarks := some [] } }
    t.map.phase = .active ∧ t.map.campaign = 1 ∧ t.notices.pending = [{ cls := .campaignComplete, subject := 0 }] := by
  decide

/-- R11: a held entry returns to DISPUTED and the phase is CLOSED. -/
theorem test_close_campaign :
    let s := review .underReview { entryIn .resolving with holder := some 1 }
    let t := after (.closeCampaign planner)
      { s with seats := s.seats.set 1 { held := some ref, expiry := some 9 } }
    t.map.phase = .closed ∧ (t.store.entry 0).map Entry.status = some .disputed ∧ (t.seats.get 1).held = none := by
  decide

/-- R126: two points at one phase break the curve conditions. -/
theorem test_load_curve :
    ((after (.loadCurve planner 2 50 [{ phase := 300, depth := 100 }, { phase := 300, depth := 0 }])
      State.reset).port.response.map Response.status) = some .curveInvalid := by decide

/-! ## Worked examples of chapters 2 and 3 -/

/-- 2.12 step 3: OBSTRUCTED in an IN_TEST tube with attempts 0 and limit 3. -/
theorem test_obstructed_retest :
    Tube.afterPass 3 .obstructed { tubeIn .inTest with claim := some 2 } =
      { tubeIn .retest with attempts := 1 } := by decide

/-- 2.13 step 2: the third unsuccessful pass blocks the tube. -/
theorem test_obstructed_blocks :
    (Tube.afterPass 3 .obstructed { tubeIn .inTest with claim := some 2, attempts := 2 }).state = .blocked := by decide

/-- 2.13 step 3: UNBLOCK_TUBE. -/
theorem test_unblock_tube :
    ((after (.unblockTube crew (.index 0)) (withTube { tubeIn .blocked with attempts := 3 } active)).tube 0) =
      some { tubeIn .retest with attempts := 0 } := by decide

/-- 2.13 step 5: PLUG_TUBE on a CLAIMED tube. -/
theorem test_plug_tube_busy :
    ((after (.plugTube crew (.index 0)) (pass .assigned .claimed)).port.response.map Response.status) =
      some .tubeBusy := by decide

/-- 2.13 steps 7: PLUG_TUBE retires the entry and clears the planned flag. -/
theorem test_plug_tube :
    let s := after (.plugTube crew (.index 0)) (review .retest (entryIn .new))
    (s.tube 0).map Tube.state = some .plugged ∧ (s.tube 0).map Tube.planned = some false ∧ s.store.entry 0 = none ∧
    s.store.free.count = 16384 := by decide

/-- 2.12 step 10: REQUEST_RETEST clears the marks. -/
theorem test_request_retest :
    let s := after (.requestRetest secondary (.index 0))
      (withTube { tubeIn .underReview with primaryMark := true } active)
    s.tube 0 = some (tubeIn .retest) := by decide

/-- R39: an empty cell refuses SET_WATCH with NO_TUBE. -/
theorem test_set_watch :
    ((after (.setWatch planner 0 (some spot)) State.reset).port.response.map Response.status) = some .noTube := by
  decide

/-- 3.9 steps 3 and 4: the distances to 010/020. -/
theorem test_distance :
    Pos.distance { row := 10, col := 22 } { row := 10, col := 20 } = 2 ∧
    Pos.distance { row := 11, col := 23 } { row := 10, col := 20 } = 3 := by decide

/-- R59, R25: ABANDON in ASSIGNED returns the tube to its prior state and the channel to its seek. -/
theorem test_abandon :
    let s := after (.abandon crew 2) (pass .assigned .claimed)
    s.tube 0 = some (tubeIn .untested) ∧ (s.chan 2).state = .seeking ∧ (s.chan 2).claim = none ∧
    ((s.txs.get 2).sending.map Message.kind) = some .cancel := by decide

/-- R61: CHANNEL_RESET in PROBING leaves the tube RETEST and the channel OFF. -/
theorem test_channel_reset :
    let s := after (.channelReset crew 2) (pass .probing .inTest)
    (s.tube 0).map Tube.state = some .retest ∧ (s.chan 2).state = .off ∧ (s.chan 2).timer.mode = .stopped := by decide

/-- R56: a channel in PROBING refuses STOP_CHANNEL. -/
theorem test_stop_channel :
    ((after (.stopChannel crew 2) (pass .probing .inTest)).port.response.map Response.status) = some .claimHeld := by
  decide

/-- R58, R46: ASSIGN_TUBE granted: the pass number is the passes count plus one. -/
theorem test_assign_tube :
    let s := after (.assignTube crew 2 (.index 0))
      (withChan .idle (withTube { tubeIn .retest with passes := 1 } active))
    (s.chan 2).claim.map Claim.pass = some 2 ∧ (s.chan 2).claim.map Claim.prior = some .retest ∧
    (s.tube 0).map Tube.claim = some (some 2) := by decide

/-- R51, R68: a window is clamped, never refused. -/
theorem test_clamped :
    Bounds.clamped { rowLo := -5, rowHi := 300, colLo := 7, colHi := 255 } =
      { rowLo := 0, rowHi := 255, colLo := 7, colHi := 255 } := by decide

/-! ## Worked examples of chapter 4 -/

def seekConfig : Config :=
  { Config.default with
    window := { rowLo := 30, rowHi := 33, colLo := 100, colHi := 102 }
    majorAxis := .column, startCorner := .bottomRight, serpentine := true }

/-- 4.4: COLUMN from bottom-right with serpentine on. -/
theorem test_walk_column :
    (List.range 12).map (walkPos seekConfig) =
      [⟨33, 102⟩, ⟨32, 102⟩, ⟨31, 102⟩, ⟨30, 102⟩, ⟨30, 101⟩, ⟨31, 101⟩, ⟨32, 101⟩, ⟨33, 101⟩, ⟨33, 100⟩,
       ⟨32, 100⟩, ⟨31, 100⟩, ⟨30, 100⟩] := by decide

/-- 4.4: ROW from top-left with serpentine on: index 6 is 011/025, index 11 is 011/020. -/
theorem test_walk_row :
    let c : Config := { Config.default with window := { rowLo := 10, rowHi := 11, colLo := 20, colHi := 25 } }
    walkPos c 5 = ⟨10, 25⟩ ∧ walkPos c 6 = ⟨11, 25⟩ ∧ walkPos c 11 = ⟨11, 20⟩ := by decide

/-- 4.9: the cursor 031/102 starts the seek at index 3. -/
theorem test_walk_start : startIndex seekConfig (some ⟨31, 102⟩) = 3 := by decide

/-- R66: of two waiting channels of one level the lower number is chosen. -/
theorem test_walker_choice :
    let s := { State.reset with walker := { Walker.powerOn with waiting := (Eight.fill true).set 0 false } }
    ((after .walkerChoice s).walker.seek.map Seek.chan) = some 1 := by decide

/-! ## Worked examples of chapters 5 and 6 -/

/-- R86: one wrong bit is corrected and counted; two are no sync word. -/
theorem test_sync_word :
    let s := after (.syncWordFound 3 0xB38F#16) State.reset
    (s.link 3).rx = .header ∧ (s.link 3).flags.syncCorrected = true ∧ (s.link 3).errors = 1 ∧
    s.notices.pending = [] ∧ ((after (.syncWordFound 3 0xB38D#16) State.reset).link 3).rx = .hunt := by decide

/-- Chapter 11, section 11.3: the header of the ENTER frame from link 3. -/
theorem test_header_check :
    let s := after (.headerCheck 3 [3#8, 1#8, 4#8, BitVec.ofNat 8 (crc8 [3#8, 1#8, 4#8])])
      (after (.syncWordFound 3 0xB38E#16) State.reset)
    (s.link 3).rx = .payload ∧ (s.link 3).header = some { source := 3, kind := 1, length := 4 } := by decide

/-- Chapter 11, section 11.3: the echo of tube 112/047, INLET, pass 2. -/
theorem test_echo_bytes :
    Echo.bytes { pos := { row := 112, col := 47 }, face := .inlet, pass := 2 } = [0x70#8, 0x2F#8, 0x00#8, 0x02#8] := by
  decide

/-- 5.10 step 3: a HEARTBEAT with source field 5 under strict source. -/
theorem test_frame_source :
    let l := State.reset.link 3
    let s := State.reset.setLinkRx 3
      { l with rx := .payload, header := some { source := 5, kind := 7, length := 4 } }
    let p := [0x70#8, 0x2F#8, 0#8, 2#8]
    let t := after (.frameComplete 3 (p ++ byte2 (crc16 p))) s
    (t.link 3).queue = [] ∧ (t.link 3).flags.source = true ∧ (t.link 3).lastKind = none ∧
    t.notices.pending = [{ cls := .link, subject := 3 }] := by decide

/-- 5.10, round-robin order: with the pointer at 5, link 6, then 1, then 5, then 1. -/
theorem test_round_robin :
    let h : Report := report .heartbeat []
    let q (a b c : List Report) (p : Fin 8) : State :=
      { ((State.reset.setLinkRx 1 { Link.powerOn with queue := a }).setLinkRx 5
          { Link.powerOn with queue := b }).setLinkRx 6 { Link.powerOn with queue := c } with engine := p }
    (q [h, h] [h] [h] 5).engineChoice = some 6 ∧ (q [h, h] [h] [] 6).engineChoice = some 1 ∧
    (q [h] [h] [] 1).engineChoice = some 5 ∧ (q [h] [] [] 5).engineChoice = some 1 := by decide

/-- R101: an ENTER in IDLE is refused, and raises SEQUENCE on its link. -/
theorem test_report_refused :
    let s := after .reportTake (withReport (report .enter echo) (withChan .idle active))
    (s.link 2).flags.sequence = true ∧ (s.link 2).queue = [] ∧ s.engine = 2 := by decide

/-- 2.12 step 2, R104: ENTER accepted. -/
theorem test_enter :
    let s := after .reportTake (withReport (report .enter echo) (pass .assigned .claimed))
    (s.chan 2).state = .probing ∧ (s.tube 0).map Tube.state = some .inTest := by decide

/-- 6.5.2, channels 0, 2 and 5 at the assertion. -/
theorem test_halt :
    let c := Channel.powerOn
    ({ c with state := .probing, timer := timerAt 9 } : Channel).halt =
      { c with state := .halted, prior := some .probing, timer := { timerAt 9 with mode := .frozen } } ∧
    ({ c with state := .stalled, prior := some .assigned } : Channel).halt =
      { c with state := .halted, prior := some .stalled, interrupted := some .assigned } ∧
    ({ c with state := .seeking } : Channel).halt = { c with state := .halted, prior := some .idle } := by decide

/-- R118: the sixteenth low sample asserts the interlock, and posts INTERLOCK. -/
theorem test_interlock_sample :
    let s := { State.reset with interlock := { low := false, changeCount := 15, latch := false } }
    (after (.wbholdSample true) s).interlock = { low := true, changeCount := 0, latch := true } ∧
    (after (.wbholdSample true) s).notices.pending = [{ cls := .interlock, subject := 0 }] := by decide

/-- R122: RELEASE goes to the channel that returns to PROBING, and its timer is loaded. -/
theorem test_interlock_clear :
    let s := pass .halted .inTest
    let s1 := s.setChan 2 { s.chan 2 with prior := some .probing }
    let t := after (.interlockClear crew) { s1 with interlock := { low := false, changeCount := 0, latch := true } }
    (t.chan 2).state = .probing ∧ (t.chan 2).timer.count = 60 ∧
    ((t.txs.get 2).sending.map Message.kind) = some .release := by decide

/-- 6.7 at 60.0: the expiry. -/
theorem test_stall_expiry :
    let s := pass .probing .inTest
    let t := after (.stallTimerTick 2) (s.setChan 2 { s.chan 2 with timer := timerAt 1 })
    (t.chan 2).state = .stalled ∧ (t.chan 2).prior = some .probing ∧ (t.chan 2).timer.count = 0 ∧
    (t.chan 2).timer.mode = .frozen ∧ t.notices.pending = [{ cls := .stall, subject := 2 }] ∧
    ((t.txs.get 2).sending.map Message.kind) = some .hold := by decide

/-- 6.7 at 30.0 and 40.0: a new encoder count reloads the timer, the same count does not. -/
theorem test_progress :
    let p := echo ++ [0#8, 0x2B#8, 0xC0#8]
    let s := after .reportTake (withReport (report .progress p) (pass .probing .inTest))
    let again := s.setChan 2 { s.chan 2 with timer := timerAt 30 }
    (s.chan 2).lastCount = some 11200 ∧ (s.chan 2).timer.count = 60 ∧
    ((after .reportTake (withReport (report .progress p) again)).chan 2).timer.count = 30 := by decide

/-- R60: RESUME loads the timer and sends RELEASE. -/
theorem test_resume :
    let s := pass .stalled .inTest
    let t := after (.resume crew 2) (s.setChan 2 { s.chan 2 with prior := some .probing })
    (t.chan 2).state = .probing ∧ (t.chan 2).timer.count = 60 ∧
    ((t.txs.get 2).sending.map Message.kind) = some .release := by decide

/-- R109: a data gap mark sets the flag of the claim it finds. -/
theorem test_data_gap :
    let s := pass .probing .inTest
    let t := after (.dataGapMark 2) (s.setChan 2 { s.chan 2 with gapMarks := 1 })
    (t.chan 2).claim.map Claim.dataGap = some true ∧ (t.chan 2).gapMarks = 0 := by decide

/-- R64: the claim a reset released sends CANCEL when the reset ends. -/
theorem test_reset_cancel :
    let s := after .resetEnd (after .reset (pass .probing .inTest))
    ((s.txs.get 2).sending.map Message.kind) = some .cancel ∧ s.held = false ∧
    (s.tube 0).map Tube.state = some .retest := by decide

/-! ## The worked case of chapter 7 -/

def supports : List Nat := [1450, 2950, 4420, 5900, 7380, 8850, 10330]

def freqs : Four FreqSettings :=
  { a0 := { threshold := 4096, curve := none }
    a1 :=
      { threshold := 50
        curve := some [⟨300, 100⟩, ⟨550, 80⟩, ⟨900, 40⟩, ⟨1200, 20⟩, ⟨1500, 0⟩] }
    a2 := { threshold := 4096, curve := none }
    a3 := { threshold := 4096, curve := none } }

def cal : Calibration :=
  { scale := 125
    rotation := { a0 := 0, a1 := 3450, a2 := 0, a3 := 0 }
    factor := { a0 := 1024, a1 := 90, a2 := 1024, a3 := 1024 } }

def claim7 : Claim := { claim with tube := 5210, pos := { row := 112, col := 47 } }

def raw : Indication :=
  { count := 58431, freq := 2, phaseRaw := 1100, amplitudeRaw := 18200, extentCount := 160 }

/-- The axial position, the depth and the location of a reduction. -/
def found (r : Reduced) : Option (Nat × Nat × Landmark × Int) :=
  match r with
  | .measured m => some (m.measured.axial, m.measured.depth, m.measured.landmark, m.measured.offset)
  | .discarded | .overtravel => none

/-- 7.9: the measurement handed to the store. -/
theorem test_reduction :
    reduce Params.default supports freqs claim7 cal raw = .measured
      { tube := 5210, pass := 1, freq := 1,
        measured :=
          { axial := 7304, extent := 20, phase := 817, amplitude := 1600, saturated := false, depth := 49,
            landmark := .support 5, offset := -76 } } := by decide +kernel

/-- 7.10: the same report under other conditions. -/
theorem test_reduction_changes :
    found (reduce Params.default supports freqs { claim7 with face := .outlet } cal raw) =
      some (4696, 49, .support 3, 276) ∧
    found (reduce Params.default supports freqs claim7 cal { raw with count := 96700 }) =
      some (12000, 49, .tso, 0) ∧
    reduce Params.default supports freqs claim7 cal { raw with count := 97000 } = .overtravel ∧
    reduce Params.default supports freqs claim7 cal { raw with amplitudeRaw := 300 } = .discarded ∧
    found (reduce Params.default supports freqs claim7 cal { raw with phaseRaw := 2700 }) =
      some (7304, 0, .support 5, -76) ∧
    reduce Params.default supports freqs claim7 cal { raw with freq := 5 } = .discarded := by decide

/-! ## Worked examples of chapters 8 and 9 -/

/-- 8.10, pass 2, measurements 3 and 4: DISMISSED at 12 grows with 25; FINAL at 24 does not with 23. -/
theorem test_grown :
    Entry.grown 10 25 { entryIn .dismissed with reference := some 12 } = true ∧
    Entry.grown 10 23 { entryIn .final with outcome := some (.depth 24) } = false := by decide

/-- R148: an amplitude that is no greater leaves the measured fields; the sightings rise. -/
theorem test_merge :
    let s := review .inTest (entryIn .new)
    let m : Measurement := { tube := 0, pass := 1, freq := 0, measured := { measured with axial := 5900 } }
    ((s.fileMeasurement m).store.entry 0) = some { entryIn .new with sightings := 2 } := by decide

/-- R151: a creation takes the entry at the head of the free list. -/
theorem test_create :
    let s := review .inTest (entryIn .new)
    let m : Measurement := { tube := 0, pass := 1, freq := 0, measured := { measured with axial := 3000 } }
    ((s.fileMeasurement m).tube 0).map Tube.entries = some [1, 0] ∧ (s.fileMeasurement m).store.free.fresh = 2 := by
  decide

/-- 9.9 step 2: DEPTH 34 and DEPTH 46 disagree under tolerance 10; with DEPTH 44 the entry would be FINAL 44. -/
theorem test_compare :
    ((entryIn .oneCall).compare 10 (.depth 34) (.depth 46)).status = .disputed ∧
    ((entryIn .oneCall).compare 10 (.depth 34) (.depth 44)).outcome = some (.depth 44) := by decide

/-- 9.9 step 2: the tube goes UNDER_REVIEW and DISPUTE is posted. -/
theorem test_submit_call :
    let s := after (.submitCall secondary ref 1 46)
      (review .tested { entryIn .oneCall with primary := some (.depth 34) })
    (s.tube 0).map Tube.state = some .underReview ∧ s.notices.pending = [{ cls := .dispute, subject := 0 }] := by decide

/-- 9.9 at 09:10:00: TAKE_ENTRY with a hold limit of 30 minutes answers 1800 seconds. -/
theorem test_take_entry :
    let s := after (.takeEntry resolver ref) (review .underReview (entryIn .disputed))
    s.port.response.map Response.body = some [0#8, 0#8, 1#8, 7#8, 8#8] ∧
    (s.seats.get 1).expiry = some 1800000 := by decide

/-- 9.9 at 09:40:00 and 09:41:10: the expiry returns the entry; RESOLVE_ENTRY then finds no held entry. -/
theorem test_hold_expiry :
    let s := after (.holdTimerExpiry 1) (read (after (.takeEntry resolver ref)
      (review .underReview (entryIn .disputed))))
    (s.store.entry 0).map Entry.status = some .disputed ∧ s.clock = 1800000 ∧
    s.notices.pending = [{ cls := .holdExpired, subject := 1 }] ∧
    ((after (.resolveEntry resolver 1 44) s).port.response.map Response.status) = some .notHolder := by decide

/-- 9.9, resolution: DEPTH 44 settles the entry FINAL. -/
theorem test_resolve_entry :
    let s := after (.resolveEntry resolver 1 44) (read (after (.takeEntry resolver ref)
      (review .underReview (entryIn .disputed))))
    (s.store.entry 0).map Entry.outcome = some (some (.depth 44)) ∧ (s.seats.get 1).held = none := by decide

/-- R174: with both marks and no open entry the tube is CLEARED. -/
theorem test_review_done :
    let s := after (.reviewDone primary (.index 0) false) (withTube { tubeIn .tested with secondaryMark := true } active)
    (s.tube 0).map Tube.state = some .cleared := by decide

/-- R19: the last planned tube reaches CLEARED and CAMPAIGN_COMPLETE is posted; its retest arms the flag again. -/
theorem test_completion :
    let s := after (.reviewDone primary (.index 0) false) (withTube { tubeIn .tested with secondaryMark := true } active)
    s.map.armed = false ∧ s.notices.pending = [{ cls := .campaignComplete, subject := 0 }] ∧
    (after (.requestRetest primary (.index 0)) (read s)).map.armed = true := by decide

/-! ## Worked example of chapter 10 -/

/-- The pending set of 10.10: BLOCKED 3107 and 8801, DISPUTE of twenty tubes from 1022 on, WATCH 0 to 3, EXHAUSTED
0 to 5. -/
def fullSet : NoticeUnit :=
  { NoticeUnit.powerOn with
    floor := 2
    pending :=
      [⟨.blocked, 3107⟩, ⟨.blocked, 8801⟩] ++ (List.range' 1022 20).map (fun n => ⟨.dispute, n⟩) ++
      (List.range 4).map (fun n => ⟨.watch, n⟩) ++ (List.range 6).map (fun n => ⟨.exhausted, n⟩) }

def step1 : NoticeUnit := fullSet.post .plugCall 4420

/-- 10.10 step 1: EXHAUSTED 5 leaves, PLUG_CALL 4420 enters, the overflow flag is set. -/
theorem test_post_full :
    fullSet.pending.length = 32 ∧ lowestNotice fullSet.levels fullSet.pending = some ⟨.exhausted, 5⟩ ∧
    step1.pending.length = 32 ∧ step1.pending.contains ⟨.plugCall, 4420⟩ = true ∧
    step1.pending.contains ⟨.exhausted, 5⟩ = false ∧ step1.overflow = true ∧ step1.attention = true := by
  decide +kernel

/-- 10.10 steps 2 and 3: an EXHAUSTED post is not entered, a pending DISPUTE is absorbed. -/
theorem test_post_lost : step1.post .exhausted 6 = step1 ∧ step1.post .dispute 1022 = step1 := by decide +kernel

/-- 10.10 steps 4 to 6: BLOCKED 3107, BLOCKED 8801, then PLUG_CALL 4420; ATTN# is then released. -/
theorem test_take_order :
    let u1 := step1.remove (highestNotice step1.levels step1.pending)
    let u2 := u1.remove (highestNotice u1.levels u1.pending)
    let u3 := u2.remove (highestNotice u2.levels u2.pending)
    highestNotice step1.levels step1.pending = some ⟨.blocked, 3107⟩ ∧
    highestNotice u1.levels u1.pending = some ⟨.blocked, 8801⟩ ∧
    highestNotice u2.levels u2.pending = some ⟨.plugCall, 4420⟩ ∧ u3.pending.length = 29 ∧ u3.attention = false := by
  decide +kernel

/-- 10.10 step 7: WATCH at level 0 removes the four WATCH notices; step 8: with floor 1 ATTN# is asserted. -/
theorem test_set_notice_level :
    let u1 := step1.remove (highestNotice step1.levels step1.pending)
    let u2 := u1.remove (highestNotice u1.levels u1.pending)
    let u3 := (u2.remove (highestNotice u2.levels u2.pending)).setLevel .watch 0
    u3.pending.length = 25 ∧ u3.overflow = true ∧ u3.attention = false ∧
    ({ u3 with floor := 1 } : NoticeUnit).attention = true := by decide +kernel

/-- TAKE_NOTICE on an empty set (11.4): class FFh. -/
theorem test_take_notice :
    (after (.takeNotice planner) State.reset).port.response.map Response.body =
      some [0xFF#8, 0#8, 0#8, 0#8, 0#8, 0#8, 0#8, 0#8, 0#8] := by decide

/-! ## The port -/

/-- A whole request transfer of these bytes. -/
def sent (bytes : List Byte) (s : State) : State := after (.requestTransferRefused ⟨bytes, true⟩) s

/-- R181: a frame of a wrong CRC is FORMAT; a good frame of code 2Bh is UNKNOWN; role codes 0 and 6 are ROLE (R194), and
so is OPEN_CAMPAIGN by CREW; CLOSE_CAMPAIGN in LAYOUT is PHASE; SET_CLEARANCE 8 is RANGE. The CRCs are worked out by
hand from R194. -/
theorem test_refused_transfers :
    ([[5#8, 0x26#8, 0x10#8, 0#8, 0#8], [5#8, 0x2B#8, 0x10#8, 0xEF#8, 0x41#8], [5#8, 0x26#8, 0#8, 0x8B#8, 0x2C#8],
      [5#8, 0x26#8, 0x60#8, 0xE7#8, 0x8A#8], [5#8, 6#8, 0x20#8, 0xA9#8, 0xA8#8], [5#8, 7#8, 0x10#8, 0xAC#8, 0xCA#8],
      [6#8, 0x0E#8, 0x20#8, 8#8, 0x3F#8, 0xB6#8]].map
        (fun l => ((sent l State.reset).port.response.map Response.status).getD .ok)) =
      [.format, .unknown, .role, .role, .role, .phase, .range] := by decide +kernel

/-- R194: START_CHANNEL 3 from CREW, seat 1, with bits 3 and 2 of the third byte set; it is executed. -/
theorem test_frame_executed :
    sent [6#8, 0x0F#8, 0x2D#8, 3#8, 0xCF#8, 0xB1#8] active =
      after (.startChannel { role := 2, seat := 1 } 3) active := by decide +kernel

/-- 11.1: bodies written out by hand: ASSIGN_TUBE channel 2, position 003/004; TAKE_ENTRY entry 0, issue 1;
PLAN_REGION rows −1 to 5, columns 0 to 256, clear; SET_LANDMARKS 256 and 512. -/
theorem test_bodies :
    requestOf .assignTube crew [2#8, 0#8, 3#8, 4#8] = some (.assignTube crew 2 (.position spot)) ∧
    requestOf .takeEntry resolver [0#8, 0#8, 1#8] = some (.takeEntry resolver ref) ∧
    requestOf .planRegion planner [0xFF#8, 0xFF#8, 0#8, 5#8, 0#8, 0#8, 1#8, 0#8, 1#8] =
      some (.planRegion planner { rowLo := -1, rowHi := 5, colLo := 0, colHi := 256 } 1) ∧
    requestOf .setLandmarks planner [2#8, 1#8, 0#8, 2#8, 0#8] = some (.setLandmarks planner [256, 512]) ∧
    requestOf .startChannel crew [] = none := by decide

/-- R180: a request transfer that has not ended is being received, and executed when it ends. -/
theorem test_receiving :
    let s := after (.requestTransferRefused ⟨[6#8, 0x0F#8, 0x2D#8], false⟩) active
    s.port.mode = .receiving ∧ s.port.received = [6#8, 0x0F#8, 0x2D#8] ∧ after (.readTransfer 1) s = s ∧
    (sent [3#8, 0xCF#8, 0xB1#8] s).port = (sent [6#8, 0x0F#8, 0x2D#8, 3#8, 0xCF#8, 0xB1#8] active).port := by
  decide +kernel

/-- R179: in RESPONDING the first byte of a request transfer sends the first byte of the held response, here 00h of the
length 0022h of a READ_CENSUS response, and the bytes begun with 00h are no request. -/
theorem test_miso :
    let s := after (.readCensus planner) State.reset
    (sent [5#8] s).port.miso = [0#8] ∧ (sent [5#8] s).port.overrun = true ∧ sent [0#8, 5#8] s = s := by decide +kernel

/-- R181: action 2 of PLAN_REGION is an unknown code. -/
theorem test_plan_action :
    (after (.planRegion planner { rowLo := 0, rowHi := 0, colLo := 0, colHi := 0 } 2) active).port.response.map
      Response.status = some .range := by decide

/-- R101, R186: from reset a HEARTBEAT arrives on link 2 and the engine takes it; READ_STATUS then answers that a report
is handled, until its operation has ended. -/
def heartbeatTaken : State :=
  after (.reportTake .moment) (after (.frameComplete 2 (echo ++ byte2 (crc16 echo)))
    (after (.headerCheck 2 (byte1 2 ++ byte1 7 ++ byte1 4 ++ byte1 (crc8 (byte1 2 ++ byte1 7 ++ byte1 4))))
      (after (.syncWordFound 2 0xB38E#16) State.reset)))

theorem test_report_in_hand :
    let answer (s : State) := (after (.readStatus planner) s).port.response.map (fun r => field r.body 16 1)
    answer State.reset = some 0 ∧ answer heartbeatTaken = some 1 ∧
    answer (after .reportTake heartbeatTaken) = some 0 := by decide +kernel

/-- R61, R98: a report taken before a CHANNEL_RESET and handled after it raises SEQUENCE on the cleared link. -/
theorem test_report_across_reset :
    let s := after (.reportTake .moment) (withReport (report .farEnd echo) (pass .probing .inTest))
    let t := after .reportTake (after (.channelReset crew 2) s)
    s.hand = some (.taken 2 (report .farEnd echo)) ∧ (t.link 2).flags.sequence = true ∧ (t.link 2).errors = 1 ∧
    t.hand = none := by decide +kernel

/-- R183, R184: an overrun while a response is held shows in it, and a full read clears it. -/
theorem test_overrun :
    let s := after .overrun (after (.readCensus planner) State.reset)
    s.port.response.map Response.overrun = some true ∧
    (after (.readTransfer 34) s).port.mode = .idle ∧ (after (.readTransfer 34) s).port.overrun = false ∧
    (after (.readTransfer 33) s).port.mode = .responding := by decide

/-- R17: FIND_TUBE judges the cell of the one tube, and ends with it. -/
theorem test_find_tube :
    let s := after .findTubeVisit (running (.findTube 0x001#10 772 none) (withTube (tubeIn .untested) State.reset))
    (after .commandComplete s).port.response.map Response.body = some [1#8, 0#8, 0#8, 3#8, 4#8, 0#8] := by decide

/-- Section 11.4: READ_STATUS is 170 bytes long. -/
theorem test_read_status :
    ((after (.readStatus planner) State.reset).port.response.map (fun r => r.body.length)) = some 170 := by
  decide +kernel

/-! ## Witnesses: the premises of each statement met by one concrete state

Where a statement has clauses, each clause has its own part, at a boundary of its range where it has one. -/

theorem witness_StepRunsFront :
    ({ State.reset with pending := [.reset, .powerOn] } : State).pending = .reset :: [.powerOn] ∧
    State.reset.pending = [] := by decide

theorem witness_EveryCommandAnswers :
    (after .reset State.reset).held = true ∧ Instr.reset ≠ .powerOn ∧ Instr.reset ≠ .resetEnd := by decide

theorem witness_ResetKeepsRecords :
    let s := review .underReview { entryIn .resolving with holder := some 1 }
    s.held = false ∧ sparseWf emptySlot s.store.pool = true ∧ (s.tube 0).isSome = true ∧
    ((after .reset s).tube 0).isSome = true ∧
    (∀ x ∈ [Phase.layout, .active], let u := inPhase x (withTube (tubeIn .cleared) State.reset)
      u.held = false ∧ u.map.phase = x ∧ u.tube 0 = some (tubeIn .cleared) ∧ (∀ n : Fin 8, (u.chan n).claim = none) ∧
      (after .reset u).map.armed = decide (x = .layout) ∧ (after .reset u).store.warnArmed = true) := by decide

/-- The one entry of a state with none RESOLVING, and the free count at the pool level. -/
theorem witness_ResetKeepsRecords_pool :
    let s := active
    let low : State := { s with map := { s.map with params := { s.map.params with poolLevel := 16384 } } }
    low.held = false ∧ (∀ (n : Nat) (e : Entry), low.store.entry n = some e → e.status ≠ .resolving) ∧
    (after .reset low).store.warnArmed = false := by
  refine ⟨rfl, fun n e h => ?_, by decide⟩
  cases h

/-- The channels of a concrete state that hold a claim: channel 2 alone, on tube 0. -/
theorem pass_claims (x : ChanState) (y : TubeState) (m : Fin 8) :
    ((pass x y).chan m).claim = if m = 2 then some claim else none := by
  match m with
  | 0 | 1 | 2 | 3 | 4 | 5 | 6 | 7 => rfl

theorem witness_ResetReleasesClaims :
    (∀ y : TubeState, (pass .assigned y).held = false ∧ ((pass .assigned y).chan 2).claim = some claim ∧
      (pass .assigned y).tube claim.tube = some { tubeIn y with claim := some 2 } ∧
      (∀ (m : Fin 8) (j : Claim), ((pass .assigned y).chan m).claim = some j → j.tube = claim.tube → m = 2) ∧
      ∀ (i : Nat) (e : Entry), (pass .assigned y).store.entry i = some e → e.status ≠ .resolving) ∧
    ({ tubeIn .claimed with claim := some 2 } : Tube).state = .claimed ∧
    ({ tubeIn .inTest with claim := some 2 } : Tube).state = .inTest ∧
    (after .reset (pass .assigned .claimed)).held = true ∧
    (after .reset (pass .assigned .claimed)).cancels.get 2 = some claim.echo ∧
    (after .reset (pass .assigned .claimed)).cancels.get 3 = none := by
  refine ⟨fun y => ⟨rfl, rfl, rfl, fun m j h _ => ?_, fun i e h => ?_⟩, by decide⟩
  · rw [pass_claims] at h
    by_contra hm
    rw [if_neg hm] at h
    cases h
  · cases h

/-- The port busy with a command, or with its response. -/
def busy : State := running (.readTube .ok []) State.reset
def answered : State := after (.readCensus planner) State.reset

theorem witness_RequestsOverrun :
    busy.held = false ∧ busy.port.mode = .executing ∧ answered.held = false ∧ answered.port.mode = .responding ∧
    (Instr.readCensus planner).request.isSome = true ∧ 1#8 ≠ 0#8 ∧ answered.port.response.isSome = true := by decide

theorem witness_PortRefusals :
    State.reset.open = true ∧ roleOf 0 = none ∧ roleOf 6 = none ∧
    (Instr.readCensus { role := 6, seat := 0 }).request = some (.readCensus, { role := 6, seat := 0 }) ∧
    (Instr.openCampaign crew).request = some (.openCampaign, crew) ∧ roleOf crew.role = some .crew ∧
    Command.permitsRole .openCampaign .crew = false ∧
    (Instr.closeCampaign planner).request = some (.closeCampaign, planner) ∧ roleOf planner.role = some .planner ∧
    Command.permitsRole .closeCampaign .planner = true ∧
    Command.permitsPhase .closeCampaign State.reset.map.phase = false ∧
    (4#8).toNat < 5 ∧ ([5#8, 1#8] : List Byte).length ≠ (5#8).toNat ∧
    bytesNat (([5#8, 0x26#8, 0x10#8, 0#8, 0#8] : List Byte).drop 3) ≠ crc16 [5#8, 0x26#8, 0x10#8] ∧
    bytesNat (([5#8, 0x2B#8, 0x10#8, 0xEF#8, 0x41#8] : List Byte).drop 3) = crc16 [5#8, 0x2B#8, 0x10#8] ∧
    42 < (0x2B#8).toNat ∧ State.reset.port.mode = .idle ∧
    (after (.requestTransferRefused ⟨[6#8], false⟩) State.reset).port.mode = .receiving ∧
    (after (.requestTransferRefused ⟨[6#8], false⟩) State.reset).open = true ∧
    Command.code .readStatus = 0x26#8 ∧ requestOf .readStatus planner [] = some (.readStatus planner) ∧
    requestOf .readStatus planner [1#8] = none ∧ State.reset.takes .readStatus planner = true ∧
    (0x26#8).toNat ≤ 42 := by decide +kernel

/-- A body of CONFIGURE_CHANNEL for channel 0 that keeps nothing but group 5, with stall tick 1, reload 60 and ENTER. -/
def configBytes : List Byte :=
  [0#8, 0#8, 16#8] ++ List.replicate 25 0#8 ++ [1#8, 60#8, 1#8]

/-- Its fields. -/
def configCarried : ConfigFields :=
  { face := 0, keep1 := false, keep2 := false, keep3 := false, keep4 := false, keep5 := true
    window := { rowLo := 0, rowHi := 0, colLo := 0, colHi := 0 }, keepouts := Eight.fill false, majorAxis := 0
    startCorner := 0, serpentine := false, mix := 0, pattern := 0, zones := 0
    states := { untested := false, retest := false }, priority := 0, stallTick := 1, stallReload := 60
    reloads := { enter := true, progress := false, indication := false, farEnd := false, heartbeat := false } }

theorem witness_PortRefusals_bodies :
    1 < (2#8).toNat ∧ (List.replicate 21 0#8).length = 21 ∧ carried (List.replicate 21 0#8) 18 2 none ∧
    carried [1#8, 0x2E#8, 0xE0#8] 0 2 (some 12000) ∧ ([1#8, 5#8, 0xAA#8] : List Byte).length = 1 + 2 * [1450].length ∧
    field [1#8, 5#8, 0xAA#8] 1 2 = 1450 ∧ configBytes.length = 31 ∧ configCarried.carriedBy configBytes := by
  refine ⟨by decide, rfl, .inl ⟨rfl, rfl⟩, .inr ⟨rfl, rfl⟩, rfl, rfl, rfl, by decide, by decide, by decide, by decide,
    by decide, by decide, by decide, by decide, ?_, ?_, by decide, by decide, by decide, by decide, by decide⟩
  · intro r c hr hc
    interval_cases r <;> interval_cases c <;> rfl
  · intro z hz
    interval_cases z <;> rfl

theorem witness_RangeRefuses :
    7 < 8 ∧ 16383 < 16384 ∧ 100 < 101 ∧
    (∀ c ∈ [Command.configureChannel, .setChannelCal, .setKeepout, .setClearance, .startChannel, .stopChannel,
      .abandon, .resume, .channelReset, .assignTube, .setLink, .restartLink, .readChannel, .readLink,
      .setNoticeLevel, .setFloor, .setWatch, .readEntry, .readTube, .findTube, .planRegion],
      active.takes c planner = true) ∧
    (∀ c ∈ [Command.plugTube, .unblockTube], active.takes c crew = true) ∧
    (∀ c ∈ [Command.reviewDone, .requestRetest], active.takes c primary = true) ∧ 4 < 5 ∧ 1 < 2 ∧ 255 < 256 ∧
    3599 < 3600 ∧ 1000 < 1001 ∧ 4095 < 4096 ∧
    active.takes .submitCall primary = true ∧ active.takes .takeEntry resolver = true ∧
    active.takes .resolveEntry resolver = true := by decide

/-- A held response of seven bytes. -/
def short : Response := { command := 0x0F#8, status := .ok, overrun := false, body := [] }

theorem witness_ReadTransferSends :
    let s := State.reset.answer .startChannel .ok []
    s.held = false ∧ s.port.mode = .responding ∧ s.port.response = some short ∧ short.frame.length = 7 ∧ 0 < 1 ∧
    State.reset.port.mode ≠ .responding ∧ State.reset.port.mode ≠ .receiving ∧
    (after (.requestTransferRefused ⟨[6#8], false⟩) State.reset).port.mode = .receiving ∧
    short.body.length + 7 < 65536 ∧ s.ready = true ∧ State.reset.open = true ∧
    (Instr.readCensus planner).request = some (.readCensus, planner) ∧
    (Instr.clearLayout planner).request = some (.clearLayout, planner) ∧
    (after (.clearLayout planner) State.reset).port.mode = .executing := by decide +kernel

theorem witness_LongCommands :
    State.reset.takes .clearLayout planner = true ∧ (inPhase .closed State.reset).takes .newCampaign planner = true ∧
    (inPhase .closed State.reset).takes .prepareLayout planner = true ∧ active.takes .planRegion planner = true ∧
    active.takes .findTube crew = true ∧ Pos.inGrid { row := 255, col := 255 } = true ∧
    (∀ w ∈ [Work.clearLayout 3, .newCampaign 1, .newCampaign 0, .prepareLayout 1, .prepareLayout 0,
        .planRegion (Rect.mk 0 255 0 255) .set 772 0, .planRegion (Rect.mk 0 255 0 255) .set 773 0,
        .findTube 1 65535 none, .findTube 1 65536 none, .findTube 1 5 (some ⟨0, spot, .untested⟩)],
      (running w State.reset).held = false ∧ (running w State.reset).port.mode = .executing ∧
      (running w State.reset).port.work = some w) ∧
    State.reset.map.tubes = [] ∧ (withTube (tubeIn .untested) State.reset).map.tubes.length = 1 ∧
    (withTube (tubeIn .untested) State.reset).map.nextInRegion (Rect.mk 0 255 0 255) 772 = some (772, 0) ∧
    (withTube (tubeIn .untested) State.reset).map.nextInRegion (Rect.mk 0 255 0 255) 773 = none := by decide

theorem witness_DefineTubesDeclares :
    State.reset.takes .defineTubes planner = true ∧ 255 < 256 ∧ 0 ≤ 255 ∧ 15 < 16 ∧
    (runColumns 0 255 1).filter (fun c => (State.reset.map.at { row := 255, col := c }).isNone) = runColumns 0 255 1 ∧
    (runColumns 4 4 1).filter (fun c => ((withTube (tubeIn .untested) State.reset).map.at { row := 3, col := c }).isNone) =
      [] ∧ State.reset.map.tubes.length + (runColumns 0 255 1).length ≤ 32768 := by decide +kernel

/-- A map two tubes below the limit, one of them at 003/004. -/
def fullMap : State :=
  let s := withTube (tubeIn .untested) State.reset
  { s with map := { s.map with tubes := List.replicate 32766 (tubeIn .untested) } }

theorem fullMap_at (c : Nat) :
    fullMap.map.at { row := 3, col := c } = (withTube (tubeIn .untested) State.reset).map.at { row := 3, col := c } := rfl

theorem witness_DefineTubesLimits :
    fullMap.takes .defineTubes planner = true ∧
    runColumns 2 5 1 = [2, 3, 4] ++ 5 :: [] ∧ fullMap.map.at { row := 3, col := 5 } = none ∧
    [2, 3, 4].filter (fun c => (fullMap.map.at { row := 3, col := c }).isNone) = [2, 3] ∧
    fullMap.map.tubes.length + [2, 3].length = 32768 ∧ 255 < 256 ∧ 15 < 16 ∧ 3 ≠ 1 ∧ 3 ≠ 2 ∧ 4 < 5 := by
  refine ⟨rfl, by decide, (fullMap_at 5).trans (by decide), ?_, ?_, by decide⟩
  · rw [funext (fun c => congrArg Option.isNone (fullMap_at c))]
    decide
  · exact congrArg (· + 2) List.length_replicate

theorem witness_ClearLayoutRemovesLast :
    let s := running (.clearLayout 0) (withTube { tubeIn .cleared with entries := [0] } State.reset)
    s.held = false ∧ s.port.mode = .executing ∧ s.port.work = some (.clearLayout 0) ∧
    s.map.tubes = [] ++ [{ tubeIn .cleared with entries := [0] }] ∧
    (withEntry (entryIn .new) s).store.entry 0 ≠ none ∧ [0].Nodup := by decide

theorem witness_ClearLayoutRemovesLast_pool :
    let s := running (.clearLayout 0)
      (withEntry (entryIn .new) (withTube { tubeIn .cleared with entries := [0] } State.reset))
    let low : State := { s with map := { s.map with params := { s.map.params with poolLevel := 16384 } } }
    low.store.warnArmed = true ∧ (after .clearLayoutTube low).store.warnArmed = false := by decide +kernel

/-- The nine parameters absent but for the plug limit. -/
def plugLimit (n : Nat) : CampaignFields :=
  { length := none, plugLimit := some n, tolerance := none, mergeWindow := none, growth := none,
    attemptLimit := none, overtravel := none, holdLimit := none, poolLevel := none }

theorem witness_LayoutSettings :
    State.reset.takes .setLandmarks planner = true ∧
    (([1, 11999] : List Nat).length ≤ 14 ∧
      (∀ p ∈ ([1, 11999] : List Nat), 1 ≤ p ∧ p ≤ State.reset.map.params.length - 1) ∧
      ([1, 11999] : List Nat).Pairwise (· < ·)) ∧
    14 < (List.range 15).length ∧ (∃ p ∈ ([0] : List Nat), p < 1) ∧
    (∃ p ∈ ([12000] : List Nat), State.reset.map.params.length - 1 < p) ∧ ¬ ([5, 5] : List Nat).Pairwise (· < ·) ∧
    State.reset.takes .setCampaign planner = true ∧ (plugLimit 100).inRange = true ∧
    (plugLimit 101).inRange = false ∧ State.reset.takes .loadCurve planner = true ∧
    (0 < 1 ∧ 4 < 5 ∧ 4096 < 4097) ∧ curveValid [⟨0, 100⟩] = false ∧ curveValid [⟨0, 100⟩, ⟨3599, 0⟩] = true ∧
    4 = (3 : Fin 4).val + 1 := by decide

/-- A layout with one tube and a landmark table. -/
def ready : State :=
  let s := withTube (tubeIn .untested) State.reset
  { s with map := { s.map with landmarks := some [11999] } }

theorem witness_OpenCampaignOpens :
    ready.takes .openCampaign planner = true ∧ State.reset.takes .openCampaign planner = true ∧
    State.reset.map.tubes = [] ∧ ready.map.tubes ≠ [] ∧
    (withTube (tubeIn .untested) State.reset).map.landmarksValid = false ∧ ready.map.landmarksValid = true ∧
    (∃ f : Fin 4, (({ ready with freqs := ready.freqs.set 1 { threshold := 4095, curve := none } } : State).freqs.get
      f).threshold < 4096 ∧ (({ ready with freqs := ready.freqs.set 1 { threshold := 4095, curve := none } } :
      State).freqs.get f).curve = none) ∧
    (∀ f : Fin 4, (ready.freqs.get f).threshold < 4096 → (ready.freqs.get f).curve ≠ none) := by decide

/-- A campaign with a held entry. -/
def heldEntry : State :=
  let s := review .underReview { entryIn .resolving with holder := some 1 }
  { s with seats := s.seats.set 1 { held := some ref, expiry := some 1800000 } }

theorem witness_CloseCampaignCloses :
    (pass .assigned .claimed).takes .closeCampaign planner = true ∧
    (∃ t ∈ (pass .assigned .claimed).map.tubes, t.claim ≠ none) ∧ heldEntry.takes .closeCampaign planner = true ∧
    (∀ t ∈ heldEntry.map.tubes, t.claim = none) ∧ (heldEntry.seats.get 1).held = some ref ∧
    heldEntry.store.entry ref.number = some { entryIn .resolving with holder := some 1 } ∧
    heldEntry.tube 0 = some { tubeIn .underReview with entries := [0] } ∧
    (∀ (j : Fin 4), j ≠ 1 → (heldEntry.seats.get j).held = none) ∧ ref.number ∈ [0] := by decide

/-- An entry RESOLVING in its tube's list, the tube claimed by no channel and its census counted. -/
theorem witness_ResetKeepsRecords_resolving :
    heldEntry.store.entry 0 = some { entryIn .resolving with holder := some 1 } ∧
    heldEntry.tube 0 = some { tubeIn .underReview with entries := [0] } ∧
    (∀ m : Fin 8, (heldEntry.chan m).claim = none) ∧ sparseWf emptySlot heldEntry.store.pool = true ∧
    (∀ (x : Nat) (f : Entry), heldEntry.store.entry x = some f → f.status = .resolving →
      (x ∈ [0] ↔ f.tube = 0)) ∧ heldEntry.censusTrue := by
  refine ⟨by decide, by decide, by decide, by decide, fun x f h _ => ?_, rfl⟩
  by_cases hx : x = 0
  · subst hx
    have h0 : heldEntry.store.entry 0 = some { entryIn .resolving with holder := some 1 } := by decide
    rw [h0] at h
    cases h
    exact ⟨fun _ => rfl, fun _ => by decide⟩
  · exfalso
    have hp : heldEntry.store.pool =
        [(0, { issue := 1, content := some { entryIn .resolving with holder := some 1 } })] := rfl
    simp [Store.entry, Store.slot, hp, sparseGet, Ne.symm hx, emptySlot] at h

theorem witness_RolloverTube :
    let t : Tube := { tubeIn .plugCalled with entries := [0] }
    let s := running (.newCampaign 0) (withEntry (entryIn .final) (withTube t State.reset))
    let r := running (.prepareLayout 0) (withTube (tubeIn .plugged) State.reset)
    s.held = false ∧ s.port.mode = .executing ∧ s.port.work = some (.newCampaign 0) ∧ s.tube 0 = some t ∧
    t.state ≠ .plugged ∧ t.state ≠ .untested ∧ r.held = false ∧ r.port.mode = .executing ∧ r.port.work = some (.prepareLayout 0) ∧
    r.tube 0 = some (tubeIn .plugged) ∧ (tubeIn .plugged).state = .plugged := by decide

theorem witness_PlanRegionTube :
    let whole : Rect := { rowLo := 0, rowHi := 255, colLo := 0, colHi := 255 }
    ∀ a ∈ [PlanAction.set, .clear], ∀ t ∈ [tubeIn .untested, { tubeIn .untested with planned := false },
        { tubeIn .plugged with planned := false }],
      let s := running (.planRegion whole a 0 0) (withTube t State.reset)
      s.held = false ∧ s.port.mode = .executing ∧ s.port.work = some (.planRegion whole a 0 0) ∧
      s.map.nextInRegion whole 0 = some (772, 0) ∧ s.tube 0 = some t ∧ sparseWf none s.map.directory = true ∧
      whole.rowHi ≤ 255 := by decide

/-- A configuration request with each group kept or not. -/
def fields (keep : Bool) (priority : Nat) : ConfigFields :=
  { face := 1, keep1 := keep, keep2 := keep, keep3 := keep, keep4 := keep, keep5 := keep
    window := { rowLo := -1, rowHi := 256, colLo := 0, colHi := 255 }, keepouts := Eight.fill false
    majorAxis := 1, startCorner := 3, serpentine := false, mix := 0xFF#8, pattern := 0, zones := 0
    states := { untested := true, retest := false }, priority, stallTick := 3, stallReload := 255
    reloads := { enter := true, progress := true, indication := true, farEnd := true, heartbeat := true } }

theorem witness_ConfigureChannelApplies :
    State.reset.takes .configureChannel crew = true ∧ (fields true 8).inRange = false ∧
    (fields true 7).inRange = true ∧ (fields false 8).inRange = true ∧
    ((withChan .seeking State.reset).chan 2).state = .seeking ∧
    (Config.default.sameSelection (fields true 7).config = false) ∧
    (Config.default.sameSelection (fields false 0).config = true) ∧ ((-1 : Int) < 0) ∧ ((255 : Int) < 256) := by decide

def absentCal : CalFields := { scale := some 1000, rotation := Four.fill (some 3599), factor := Four.fill none }

theorem witness_ProbingSettings :
    (pass .probing .inTest).takes .setChannelCal crew = true ∧ absentCal.inRange = true ∧
    ((pass .probing .inTest).chan 2).claim ≠ none ∧ ((pass .probing .inTest).chan 3).claim = none ∧
    State.reset.takes .setKeepout crew = true ∧ 7 ≤ 7 ∧ State.reset.takes .setClearance crew = true := by decide

theorem witness_StartChannelStarts :
    let latched := { active with interlock := { low := false, changeCount := 0, latch := true } }
    let quiet := active.setChan 2
      { active.chan 2 with config := { (active.chan 2).config with priority := 0 } }
    latched.takes .startChannel crew = true ∧ latched.interlock.latch = true ∧
    (withChan .halted active).takes .startChannel crew = true ∧
    (withChan .halted active).interlock.latch = false ∧ ((withChan .halted active).chan 2).state ≠ .off ∧
    active.takes .startChannel crew = true ∧ (active.chan 2).state = .off ∧ 0 < (active.chan 2).config.priority ∧
    (quiet.chan 2).state = .off ∧ (quiet.chan 2).config.priority = 0 := by decide

theorem witness_StopChannelStops :
    (∀ x ∈ [ChanState.off, .idle, .seeking, .halted, .assigned, .probing, .stalled],
      (withChan x active).takes .stopChannel crew = true ∧ ((withChan x active).chan 2).state = x) ∧
    ((withChan .halted active).chan 2).claim = none ∧ ((pass .halted .inTest).chan 2).claim ≠ none ∧
    ((pass .halted .inTest).chan 2).state = .halted ∧ (∀ j, (withChan .seeking active).walker.seek = some j →
      j.chan ≠ 2) ∧
    (active.chan 3).state = .off ∧ ∃ t, exec (.interlockClear crew) active = .next t := by
  refine ⟨by decide, by decide, by decide, by decide, fun j h => ?_, by decide, _, rfl⟩
  cases h

theorem witness_AbandonReleases :
    (∀ x ∈ [ChanState.assigned, .probing, .stalled, .halted], ∀ y ∈ [TubeState.claimed, .inTest],
      (pass x y).takes .abandon crew = true ∧ ((pass x y).chan 2).claim = some claim ∧
      (pass x y).tube claim.tube = some { tubeIn y with claim := some 2 } ∧ ((pass x y).chan 2).state = x) ∧
    claim.prior.claimable = true ∧ active.takes .abandon crew = true ∧ (active.chan 2).claim = none := by decide

theorem witness_ResumeRevives :
    let s := pass .stalled .inTest
    let t := s.setChan 2 { s.chan 2 with prior := some .probing }
    let z := t.setChan 2 { t.chan 2 with config := { (t.chan 2).config with stallReload := 0 } }
    t.takes .resume crew = true ∧ (t.chan 2).state = .stalled ∧ (t.chan 2).claim = some claim ∧
    (t.chan 2).prior = some .probing ∧ 0 < (t.chan 2).config.stallReload ∧ (z.chan 2).config.stallReload = 0 ∧
    z.takes .resume crew = true ∧ active.takes .resume crew = true ∧ (active.chan 2).state ≠ .stalled := by decide

theorem witness_ChannelResetClears :
    (∀ y ∈ [TubeState.claimed, .inTest], (pass .probing y).takes .channelReset crew = true ∧
      ((pass .probing y).chan 2).claim = some claim ∧ ((pass .probing y).chan 2).state ≠ .idle ∧
      (pass .probing y).tube claim.tube = some { tubeIn y with claim := some 2 }) ∧
    active.takes .channelReset crew = true ∧ (active.chan 2).claim = none := by decide

/-- The interlock latched, the line high, channel 2 HALTED with a prior state. -/
def halted (p : ChanState) : State :=
  let s := pass .halted .inTest
  { s.setChan 2 { s.chan 2 with prior := some p } with
    interlock := { low := false, changeCount := 0, latch := true } }

/-- An UNTESTED tube and channel 2 in IDLE. -/
def placed (x : ChanState) : State := withChan x (withTube (tubeIn .untested) active)

theorem witness_AssignTubeChecks :
    (placed .idle).takes .assignTube crew = true ∧ TubeName.inRange (.position spot) = true ∧
    (placed .idle).findNamed (.index 1) = none ∧
    (placed .idle).findNamed (.position spot) = some (0, tubeIn .untested) ∧
    ((placed .halted).chan 2).state ≠ .idle ∧ ((placed .halted).chan 2).state ≠ .seeking ∧
    ((placed .seeking).chan 2).state = .seeking ∧
    Rect.holds { rowLo := 4, rowHi := 255, colLo := 0, colHi := 255 } spot = false ∧
    (placed .idle).claimReason 2 (tubeIn .untested) = none ∧ State.reset.map.phase ≠ .active ∧
    (placed .idle).map.phase = .active ∧ (tubeIn .untested).claim = none ∧ ((pass .assigned .claimed).chan 2).claim ≠ none ∧
    ((placed .idle).chan 2).claim = none ∧ (placed .idle).interlock.latch = false ∧
    (halted .idle).interlock.latch = true ∧ ((halted .idle).chan 3).claim = none ∧
    ((pass .assigned .claimed).chan 3).claim = none ∧ claim.face = ((pass .assigned .claimed).chan 3).config.face ∧
    claim.pos.distance { row := 5, col := 6 } ≤ (pass .assigned .claimed).walker.clearance := by decide

theorem witness_AssignTubeClaims :
    (∀ x ∈ [ChanState.idle, .seeking], (placed x).takes .assignTube crew = true ∧
      (placed x).findNamed (.index 0) = some (0, tubeIn .untested) ∧ ((placed x).chan 2).state = x ∧
      ((placed x).chan 2).config.window.holds (tubeIn .untested).pos = true ∧
      (∀ r : Fin 8, ((placed x).chan 2).config.keepouts.get r = false) ∧
      (placed x).claimReason 2 (tubeIn .untested) = none ∧ 0 < ((placed x).chan 2).config.stallReload) ∧
    (let s := (placed .idle).setChan 2
       { (placed .idle).chan 2 with config := { ((placed .idle).chan 2).config with stallReload := 0 } }
     s.takes .assignTube crew = true ∧ s.findNamed (.index 0) = some (0, tubeIn .untested) ∧
     s.claimReason 2 (tubeIn .untested) = none ∧ (s.chan 2).config.stallReload = 0) ∧
    TubeName.inRange (.index 0) = true ∧
    (withChan .idle (withTube (tubeIn .tested) active)).claimReason 2 (tubeIn .tested) = some .state := by decide

theorem witness_SetLinkSets :
    State.reset.takes .setLink crew = true ∧ 1 < 2 ∧ 1 = Policy.stop.code ∧ 0 = Policy.auto.code := by decide

theorem witness_RestartLinkEmpties :
    let s := State.reset.setLinkRx 7 { State.reset.link 7 with rx := .fault }
    s.takes .restartLink crew = true ∧ 7 < 8 ∧ (s.link 7).rx = .fault ∧ (s.link 6).rx ≠ .fault := by decide

theorem witness_InterlockClearReturns :
    (∀ p ∈ [ChanState.assigned, .probing, .stalled, .idle], (halted p).takes .interlockClear crew = true ∧
      (halted p).interlock.low = false ∧ (halted p).interlock.latch = true ∧
      ((halted p).chan 2).state = .halted ∧ ((halted p).chan 2).prior = some p ∧
      ((halted p).chan 2).claim = some claim ∧ ((halted p).chan 3).state ≠ .halted) ∧
    active.takes .interlockClear crew = true ∧ active.interlock.low = false ∧ active.interlock.latch = false ∧
    ({ active with interlock := { low := true, changeCount := 0, latch := true } } : State).takes .interlockClear
      crew = true := by decide

/-- One sample short of a change of level. -/
def due (low : Bool) (s : State) : State := { s with interlock := { low, changeCount := 15, latch := false } }

theorem witness_InterlockSamples :
    (due true active).held = false ∧ (due true active).interlock.low = true ∧
    (due true active).interlock.changeCount = 15 ∧ (due false active).interlock.low = false ∧
    (due false active).held = false ∧ active.interlock.changeCount < 15 ∧
    (∀ x ∈ [ChanState.off, .halted, .idle, .seeking, .stalled, .assigned, .probing],
      ((due false (pass x .inTest)).chan 2).state = x ∧ ((due false (pass x .inTest)).chan 2).claim = some claim ∧
      ((due false (pass x .inTest)).chan 2).timer.mode = .running ∧ (due false (pass x .inTest)).held = false) ∧
    ((due false (withChan .probing active)).chan 2).timer.mode ≠ .running := by decide

theorem witness_PlugTubePlugs :
    let s := review .plugCalled { entryIn .resolving with holder := some 1 }
    s.takes .plugTube crew = true ∧ TubeName.inRange (.index 0) = true ∧ s.findNamed (.index 1) = none ∧
    s.findNamed (.index 0) = some (0, { tubeIn .plugCalled with entries := [0] }) ∧ 0 ∈ [0] ∧
    s.store.entry 0 = some { entryIn .resolving with holder := some 1 } ∧
    (pass .assigned .claimed).findNamed (.index 0) = some (0, { tubeIn .claimed with claim := some 2 }) ∧
    (withTube (tubeIn .plugged) active).findNamed (.index 0) = some (0, tubeIn .plugged) := by decide

theorem witness_UnblockAndRetest :
    let s := withTube (tubeIn .blocked) active
    s.takes .unblockTube crew = true ∧ TubeName.inRange (.index 0) = true ∧ s.findNamed (.index 1) = none ∧
    s.findNamed (.index 0) = some (0, tubeIn .blocked) ∧
    (∀ x ∈ [TubeState.tested, .underReview, .cleared],
      (review x (entryIn .new)).takes .requestRetest primary = true ∧
      (review x (entryIn .new)).findNamed (.index 0) = some (0, { tubeIn x with entries := [0] })) ∧
    (review .cleared (entryIn .resolving)).store.entry 0 = some (entryIn .resolving) ∧
    (∀ n ∈ [0], (review .cleared (entryIn .new)).store.entry n = some (entryIn .new)) := by decide

theorem witness_CallsCompared : 10 ≤ 0 + 10 ∧ 0 + 10 < 11 ∧ Call.noneFound.code ≠ Call.geometry.code := by decide

theorem witness_SubmitCallTakes :
    (∀ x ∈ [EntryStatus.new, .oneCall, .disputed, .resolving, .final, .dismissed],
      (review .tested (entryIn x)).takes .submitCall primary = true ∧
      (review .tested (entryIn x)).store.resolve ref = some (entryIn x) ∧
      (review .tested (entryIn x)).tube (entryIn x).tube = some { tubeIn .tested with entries := [0] }) ∧
    ref.number < 16384 ∧ callOf 1 100 = some (.depth 100) ∧
    (review .tested (entryIn .new)).store.resolve { ref with issue := 2 } = none ∧
    (review .cleared (entryIn .new)).tube 0 = some { tubeIn .cleared with entries := [0] } := by decide

theorem witness_ReviewDoneMarks :
    (∀ x ∈ [TubeState.tested, .underReview, .cleared],
      (review x (entryIn .new)).takes .reviewDone primary = true ∧
      (review x (entryIn .new)).findNamed (.index 0) = some (0, { tubeIn x with entries := [0] }) ∧
      (review x (entryIn .new)).store.entry 0 = some (entryIn .new)) ∧
    (entryIn .new).status ≠ .final ∧ (entryIn .new).status ≠ .dismissed ∧ (entryIn .new).primary = none ∧
    (review .tested (entryIn .final)).store.entry 0 = some (entryIn .final) ∧
    (withTube { tubeIn .tested with truncated := true } active).findNamed (.index 0) =
      some (0, { tubeIn .tested with truncated := true }) ∧
    (review .tested (entryIn .new)).findNamed (.index 1) = none := by decide

theorem witness_TakeEntryHolds :
    let s := review .underReview (entryIn .disputed)
    s.takes .takeEntry resolver = true ∧ ref.number < 16384 ∧ s.store.resolve ref = some (entryIn .disputed) ∧
    s.tube 0 = some { tubeIn .underReview with entries := [0] } ∧ (s.seats.get resolver.seat).held = none ∧
    s.store.resolve { ref with number := 16383 } = none ∧ heldEntry.takes .takeEntry { resolver with seat := 2 } = true ∧
    heldEntry.store.resolve ref = some { entryIn .resolving with holder := some 1 } ∧
    (heldEntry.seats.get 1).held ≠ none ∧ (review .tested (entryIn .new)).store.resolve ref = some (entryIn .new) := by
  decide

theorem witness_HoldsEnd :
    heldEntry.takes .resolveEntry resolver = true ∧ heldEntry.takes .releaseEntry resolver = true ∧
    resolver.seat = 1 ∧ heldEntry.held = false ∧ (heldEntry.seats.get 1).held = some ref ∧
    (heldEntry.seats.get 1).expiry = some 1800000 ∧ (heldEntry.seats.get 2).held = none ∧
    (heldEntry.seats.get 2).expiry = none ∧
    heldEntry.store.entry ref.number = some { entryIn .resolving with holder := some 1 } ∧
    heldEntry.tube 0 = some { tubeIn .underReview with entries := [0] } ∧ callOf 1 100 = some (.depth 100) ∧
    callOf 2 0 = some .nonQuantifiable ∧ callOf 3 255 = some .geometry ∧ callOf 4 0 = some .noneFound := by decide

/-- Both marks set, the list of one entry. -/
def marked : Tube := { tubeIn .tested with primaryMark := true, secondaryMark := true, entries := [0] }

theorem witness_EvaluationRule :
    (∃ e ∈ [entryIn .disputed], e.status = .disputed ∨ e.status = .resolving) ∧
    (marked.primaryMark = true ∧ marked.secondaryMark = true ∧ marked.truncated = false ∧
      ∀ e ∈ [entryIn .final], e.status = .final ∨ e.status = .dismissed) ∧
    ({ entryIn .final with outcome := some (.depth 40) } : Entry).finalDepth = some 40 ∧
    ({ entryIn .final with outcome := some .nonQuantifiable } : Entry).outcome = some .nonQuantifiable ∧
    (withTube marked active).tube 0 = some marked ∧
    (marked.evaluated 40
      (withEntry { entryIn .final with outcome := some (.depth 40) } active).store).state = .plugCalled := by decide

theorem witness_QueriesAnswer :
    (∀ c ∈ [Command.readTube, .readEntry, .readCensus, .readChannel, .readLink, .readStatus],
      (review .tested (entryIn .new)).takes c crew = true) ∧ TubeName.inRange (.index 65535) = true ∧
    (review .tested (entryIn .new)).findNamed (.index 1) = none ∧
    (review .tested (entryIn .new)).findNamed (.index 0) = some (0, { tubeIn .tested with entries := [0] }) ∧
    (running (.readTube .noTube []) State.reset).port.work = some (.readTube .noTube []) ∧
    (running (.findTube 1 772 none) (withTube (tubeIn .untested) State.reset)).map.at (cellPos 772) = some 0 ∧
    (running (.findTube 1 772 none) (withTube (tubeIn .untested) State.reset)).tube 0 = some (tubeIn .untested) ∧
    (1#10).getLsbD (tubeIn .untested).state.code = true ∧ (2#10).getLsbD (tubeIn .untested).state.code = false ∧
    (review .tested (entryIn .new)).store.resolve ref = some (entryIn .new) ∧
    (review .tested (entryIn .new)).store.resolve { ref with issue := 0 } = none ∧ 32768 < 65536 := by decide

theorem witness_PostRules :
    NoticeUnit.powerOn.levels.get .pool ≠ 0 ∧ ({ NoticeUnit.powerOn with
      levels := { Levels.default with pool := 0 } } : NoticeUnit).levels.get .pool = 0 ∧
    fullSet.pending.contains ⟨.watch, 3⟩ = true ∧ fullSet.pending.contains ⟨.pool, 0⟩ = false ∧
    32 ≤ fullSet.pending.length ∧ fullSet.pending.Nodup ∧ NoticeUnit.powerOn.pending.length < 32 := by decide +kernel

theorem witness_NoticeCommands :
    let one := { active with notices := { NoticeUnit.powerOn with pending := [⟨.watch, 3⟩] } }
    (∀ c ∈ [Command.setNoticeLevel, .setFloor, .setWatch, .takeNotice], one.takes c crew = true) ∧ 10 < 11 ∧ 7 < 8 ∧
    NoticeClass.campaignComplete.number = 10 ∧ 7 ≤ 7 ∧ one.notices.pending ≠ [] ∧ active.notices.pending = [] ∧
    active.takes .takeNotice crew = true ∧ Pos.inGrid { row := 255, col := 255 } = true ∧
    one.map.at { row := 255, col := 255 } = none ∧ (placed .idle).map.at spot = some 0 ∧
    (placed .idle).takes .setWatch crew = true ∧ (placed .idle).tube 0 = some (tubeIn .untested) ∧
    (placed .idle).tube 1 = none ∧ ((pass .stalled .inTest).chan 2).claim = some claim ∧
    ((placed .idle).chan 2).claim = none ∧ (heldEntry.seats.get 1).held = some ref ∧
    (after (.setWatch crew 3 (some spot)) (placed .idle)).map.watches.get 3 = some spot := by decide

theorem witness_SyncAndHeader :
    let h := State.reset.setLinkRx 3 { State.reset.link 3 with rx := .header }
    State.reset.held = false ∧ (State.reset.link 3).rx = .hunt ∧ (h.link 3).rx = .header ∧ h.held = false ∧
    (h.link 3).gathered = [] ∧ 15 < 16 ∧ 0x338E#16 = 0xB38E#16 ^^^ BitVec.twoPow 16 15 ∧
    0xB38D#16 ≠ 0xB38E#16 ∧ (∀ i : Fin 16, 0xB38D#16 ≠ 0xB38E#16 ^^^ BitVec.twoPow 16 i.val) ∧
    (0xB4#8).toNat = crc8 [3#8, 1#8, 4#8] ∧ (0xB5#8).toNat ≠ crc8 [3#8, 1#8, 4#8] := by decide +kernel

/-- A frame of four bytes awaited on link 3, behind `k` queued reports. -/
def awaited (source kind : Nat) (strict : Bool) (k : Nat) : State :=
  State.reset.setLinkRx 3
    { State.reset.link 3 with
      rx := .payload, header := some { source, kind, length := 4 }, strict
      queue := List.replicate k (report .heartbeat echo) }

theorem witness_FrameJudged :
    (∀ k ∈ [15, 16], ∀ strict : Bool, ∀ source ∈ [3, 5],
      (awaited source 7 strict k).held = false ∧ ((awaited source 7 strict k).link 3).rx = .payload ∧
      ((awaited source 7 strict k).link 3).header = some { source, kind := 7, length := 4 } ∧
      ((awaited source 7 strict k).link 3).gathered = [] ∧
      ((awaited source 7 strict k).link 3).strict = strict ∧
      ((awaited source 7 strict k).link 3).queue.length = k) ∧
    echo.length = 4 ∧ bytesNat (byte2 (crc16 echo)) = crc16 echo ∧ bytesNat [0#8, 0#8] ≠ crc16 echo ∧
    reportKindOf 0x11 = none ∧ reportKindOf 7 = some .heartbeat ∧ ReportKind.heartbeat.length = 4 ∧
    reportKindOf 2 = some .progress ∧ 4 ≠ ReportKind.progress.length := by decide +kernel

/-- A message on its way, and `k` behind it. -/
def sending (k : Nat) : Transmitter :=
  { sending := some { kind := .assign, echo := claim.echo }
    waiting := List.replicate k { kind := .cancel, echo := claim.echo } }

theorem witness_MessagesAndMarks :
    Transmitter.quiet.sending = none ∧ (sending 7).sending ≠ none ∧ (sending 7).waiting.length < 8 ∧
    (sending 8).waiting = { kind := .cancel, echo := claim.echo } :: (sending 7).waiting ∧
    (sending 7).waiting.length = 7 ∧ State.reset.held = false ∧ (State.reset.txs.get 2).sending = none ∧
    (sending 0).waiting = [] ∧ (State.reset.chan 2).gapMarks = 0 ∧ (State.reset.chan 2).overtravelMarks = 0 ∧
    0 < (({ (pass .probing .inTest).chan 2 with gapMarks := 1, overtravelMarks := 1 } : Channel)).gapMarks := by decide

/-- A measurement on F1 at an axial position. -/
def reading (axial depth : Nat) : Measurement :=
  { tube := 0, pass := 1, freq := 0, measured := { measured with axial, depth, amplitude := 301 } }

/-- A report accepted in PROBING from link 2. -/
def arrived (k : ReportKind) : State := withReport (report k echo) (pass .probing .inTest)

/-- A report in hand, taken from link 2. -/
def inHand (k : ReportKind) : State := { pass .probing .inTest with hand := some (.taken 2 (report k echo)) }

/-- The part with the report of link 2 out of its queue. -/
def taken (s : State) : State := { s with links := s.links.set 2 { s.link 2 with queue := [] }, engine := 2 }

theorem arrived_handles (k : ReportKind) :
    (arrived k).handles .whole 2 (report k echo) (taken (arrived k)) ∧
    ∀ x, (inHand k).handles x 2 (report k echo) { inHand k with hand := none } :=
  ⟨.inl ⟨rfl, rfl, by cases k <;> decide, [], rfl, rfl⟩, fun _ => .inr ⟨rfl, rfl⟩⟩

theorem witness_ReportsJudged :
    State.reset.held = false ∧ State.reset.hand = none ∧ (∀ n : Fin 8, (State.reset.link n).queue = []) ∧
    (arrived .enter).hand = none ∧ (arrived .enter).engineChoice = some 2 ∧
    ((arrived .enter).link 2).queue = [report .enter echo] ∧
    ((arrived .enter).chan 2).accepts (report .enter echo) = false ∧
    ((arrived .heartbeat).chan 2).accepts (report .heartbeat echo) = true ∧ (arrived .heartbeat).held = false ∧
    ((halted .stalled).chan 2).state = .halted ∧ ((halted .stalled).chan 2).prior = some .stalled ∧
    ((pass .stalled .inTest).chan 2).state = .stalled := by decide

theorem witness_PassEvents :
    (∀ k ∈ [ReportKind.progress, .indication, .farEnd], (arrived k).held = false ∧
      (arrived k).engineChoice = some 2 ∧ ((arrived k).link 2).queue = [report k echo] ∧
      ((arrived k).chan 2).accepts (report k echo) = true ∧ ((arrived k).chan 2).claim = some claim) ∧
    ((withReport (report .enter echo) (pass .assigned .claimed)).chan 2).accepts (report .enter echo) = true ∧
    (withReport (report .enter echo) (pass .assigned .claimed)).tube claim.tube =
      some { tubeIn .claimed with claim := some 2 } ∧
    ((arrived .progress).chan 2).lastCount ≠ some (field echo 4 3) ∧
    reduce Params.default supports freqs claim7 cal raw ≠ .discarded ∧
    reduce Params.default supports freqs claim7 cal { raw with count := 97000 } = .overtravel ∧
    (∀ k ∈ [ReportKind.progress, .indication, .farEnd], (inHand k).held = false ∧
      ((inHand k).chan 2).accepts (report k echo) = true) ∧
    ({ inHand .indication with hand := some (.filing 2) } : State).held = false ∧
    ((pass .probing .inTest).chan 2).filing = none ∧
    (((pass .probing .inTest).setChan 2 { (pass .probing .inTest).chan 2 with filing := some (reading 5 6) }).chan
      2).filing = some (reading 5 6) := by decide +kernel

theorem witness_PassEnds :
    (∀ k ∈ [ReportKind.exit, .obstructed], ∀ x ∈ [ChanState.probing, .stalled, .halted],
      let s := withReport (report k echo) (pass x .inTest)
      let t := s.setChan 2 { s.chan 2 with prior := some .probing }
      t.held = false ∧ t.engineChoice = some 2 ∧ (t.link 2).queue = [report k echo] ∧
      t.hand = none ∧ (x ≠ .probing → (t.chan 2).accepts (report k echo) = true) ∧ (t.chan 2).claim = some claim ∧
      t.tube claim.tube = some { tubeIn .inTest with claim := some 2 }) ∧
    ((arrived .exit).chan 2).accepts (report .exit echo) = true ∧ claim.farEnd = false ∧
    ({ claim with farEnd := true } : Claim).farEnd = true ∧ (tubeIn .inTest).state = .inTest ∧
    0 + 1 < active.map.params.attemptLimit ∧ 2 + 1 = active.map.params.attemptLimit := by decide

theorem witness_StallTimerExpires :
    (∀ n ∈ [1, 2], ∀ x ∈ [ChanState.assigned, .probing],
      let s := (pass x .inTest).setChan 2 { (pass x .inTest).chan 2 with timer := timerAt n }
      s.held = false ∧ (s.chan 2).timer.mode = .running ∧ (s.chan 2).timer.count = n ∧ (s.chan 2).state = x ∧
      (s.chan 2).claim = some claim) ∧ (State.reset.chan 2).timer.mode ≠ .running ∧
    0 < Config.default.stallReload ∧ ({ Config.default with stallReload := 0 } : Config).stallReload = 0 := by decide

theorem witness_IndicationReduced :
    (4 < 5 ∧ 4095 < 4096) ∧ raw.freq = (1 : Fin 4).val + 1 ∧ raw.phaseRaw ≤ 4095 ∧
    12000 + 100 < (97000 * 125 + 500) / 1000 ∧ (96700 * 125 + 500) / 1000 ≤ 12000 + 100 ∧
    min 26 4095 < (freqs.get 1).threshold ∧ (freqs.get 1).threshold ≤ min 1600 4095 ∧
    (freqs.get 1).curve = some [⟨300, 100⟩, ⟨550, 80⟩, ⟨900, 40⟩, ⟨1200, 20⟩, ⟨1500, 0⟩] ∧
    curveValid [⟨300, 100⟩, ⟨550, 80⟩, ⟨900, 40⟩, ⟨1200, 20⟩, ⟨1500, 0⟩] = true ∧ 550 ≤ 817 ∧ 817 < 900 ∧
    supports.Pairwise (· < ·) ∧ (∀ p ∈ supports, 1 ≤ p ∧ p ≤ Params.default.length - 1) := by decide +kernel

/-- A list of twelve entries, all NEW; entry 0 is the shallowest. -/
def twelve : State :=
  let deep : Entry := { entryIn .new with measured := { measured with depth := 50 } }
  let s := withTube { tubeIn .inTest with entries := List.range 12 } active
  { s with
    store :=
      { s.store with
        pool := (0, { issue := 1, content := some (entryIn .new) }) ::
          (List.range' 1 11).map (fun n => (n, { issue := 1, content := some deep }))
        free := { fresh := 12, returned := [] } } }

/-- R152: a replacement at the pool level posts POOL again. -/
theorem test_replacement_pool :
    let low : State := { twelve with
      map := { twelve.map with params := { twelve.map.params with poolLevel := 16372 } }
      store := { twelve.store with warnArmed := false } }
    (low.fileMeasurement (reading 3000 38)).notices.pending = [{ cls := .pool, subject := 0 }] ∧
    (low.fileMeasurement (reading 3000 38)).store.warnArmed = false := by decide +kernel

/-- Every listed entry of a list passes a test that its number and record pass. -/
theorem all_listed {st : Store} {l : List Nat} {p : Nat → Entry → Bool}
    (h : ∀ j ∈ l, (st.entry j).map (p j) = some true) : ∀ j ∈ l, ∀ f, st.entry j = some f → p j f = true := by
  intro j hj f hf
  have := h j hj
  rw [hf] at this
  simpa using this

/-- R139: an ABANDON between the moments of a report's handling discards the measurement, and the next moment files none. -/
theorem test_abandon_discards :
    let s := pass .probing .inTest
    let t := after (.abandon crew 2) { s.setChan 2 { s.chan 2 with filing := some (reading 5 6) } with
      hand := some (.filing 2) }
    (t.chan 2).filing = none ∧ (after (.reportTake .moment) t).store = s.store := by decide

theorem witness_FilingRules_merge :
    let s := review .inTest (entryIn .new)
    s.tube 0 = some { tubeIn .inTest with entries := [0] } ∧
    (s.store.listed [0]).Pairwise (fun a b => a.2.measured.axial ≤ b.2.measured.axial) ∧ 0 ∈ [0] ∧
    s.store.entry 0 = some (entryIn .new) ∧ (entryIn .new).tube = (reading 5906 37).tube ∧
    (entryIn .new).freq = (reading 5906 37).freq ∧
    apart (entryIn .new).measured.axial (reading 5906 37).measured.axial ≤ s.map.params.mergeWindow ∧
    (∀ j ∈ [0], ∀ f, s.store.entry j = some f → f.freq = (reading 5906 37).freq → j ≠ 0 →
      apart 5896 5906 < apart f.measured.axial 5906) ∧
    (entryIn .new).measured.amplitude < (reading 5906 37).measured.amplitude := by
  refine ⟨by decide, by decide, by decide, by decide, by decide, by decide, by decide, fun j hj f _ _ h => ?_,
    by decide⟩
  simp only [List.mem_singleton] at hj
  exact absurd hj h

theorem witness_FilingRules_create :
    let s := review .inTest (entryIn .new)
    (∀ j ∈ [0], ∀ f, s.store.entry j = some f → f.freq = (reading 5907 37).freq →
      s.map.params.mergeWindow < apart f.measured.axial (reading 5907 37).measured.axial) ∧ [0].length < 12 ∧
    s.store.free.toList = 1 :: List.range' 2 16382 ∧
    ({ s.store.free with fresh := 16384 } : FreeList).toList = [] := by
  refine ⟨fun j hj f hf _ => ?_, by decide, ?_, by decide⟩
  · have := all_listed (st := (review .inTest (entryIn .new)).store) (l := [0])
      (p := fun _ f => decide (10 < apart f.measured.axial 5907)) (by decide) j hj f hf
    exact of_decide_eq_true this
  · show List.range' 1 (16382 + 1) ++ [] = _
    rw [List.range'_succ, List.append_nil]

theorem witness_FilingRules_full :
    twelve.tube 0 = some { tubeIn .inTest with entries := List.range 12 } ∧ 12 ≤ (List.range 12).length ∧
    List.range 12 = [] ++ 0 :: List.range' 1 11 ∧ (List.range 12).Nodup ∧
    twelve.store.entry 0 = some (entryIn .new) ∧ (entryIn .new).status = .new ∧ (entryIn .new).holder = none ∧
    (entryIn .new).measured.depth < (reading 3000 38).measured.depth ∧
    (∀ j ∈ List.range' 1 11, ∀ f, twelve.store.entry j = some f → f.status = .new →
      (entryIn .new).measured.depth ≤ f.measured.depth) ∧
    (∀ j ∈ List.range 12, ∀ f, twelve.store.entry j = some f → f.freq = (reading 3000 38).freq →
      twelve.map.params.mergeWindow < apart f.measured.axial (reading 3000 38).measured.axial) ∧
    (∀ j ∈ List.range 12, ∀ f, twelve.store.entry j = some f → f.status = .new →
      (reading 3000 37).measured.depth ≤ f.measured.depth) := by
  refine ⟨by decide, by decide, by decide, by decide, by decide, by decide, by decide, by decide,
    fun j hj f hf _ => ?_, fun j hj f hf _ => ?_, fun j hj f hf _ => ?_⟩
  · have := all_listed (st := twelve.store) (l := List.range' 1 11)
      (p := fun _ f => decide ((entryIn .new).measured.depth ≤ f.measured.depth)) (by decide +kernel) j hj f hf
    exact of_decide_eq_true this
  · have := all_listed (st := twelve.store) (l := List.range 12)
      (p := fun _ f => decide (twelve.map.params.mergeWindow < apart f.measured.axial 3000)) (by decide +kernel) j hj
      f hf
    exact of_decide_eq_true this
  · have := all_listed (st := twelve.store) (l := List.range 12)
      (p := fun _ f => decide (37 ≤ f.measured.depth)) (by decide +kernel) j hj f hf
    exact of_decide_eq_true this

/-- The walker serving channel 2. -/
def seeking (request : Option Pos) : State :=
  let s := placed .seeking
  { s with
    walker :=
      { s.walker with
        seek := some { chan := 2, size := 65536, start := 0, index := 65535, examined := 9, renew := false, request } } }

/-- The census counted, and the free count at the pool level and off it. -/
theorem witness_FilingRules_counts :
    twelve.censusTrue ∧ (review .inTest (entryIn .new)).censusTrue ∧ (review .tested (entryIn .final)).censusTrue ∧
    (withReport (report .exit echo) (pass .probing .inTest)).censusTrue ∧
    twelve.store.free.count = { twelve.map.params with poolLevel := 16372 }.poolLevel ∧
    twelve.store.free.count ≠ twelve.map.params.poolLevel ∧ twelve.store.warnArmed = true :=
  ⟨rfl, rfl, rfl, rfl, rfl, by decide, rfl⟩

theorem witness_WalkerSeeks :
    let w : State := { placed .seeking with
      walker := { Walker.powerOn with waiting := (Eight.fill false).set 2 true } }
    State.reset.held = false ∧ (∀ n, State.reset.walker.waiting.get n = false) ∧ w.walker.seek = none ∧
    w.walker.waiting.get 2 = true ∧ (∀ m : Fin 8, w.walker.waiting.get m = true → m = 2) ∧
    0 < (w.chan 2).config.window.size ∧ Rect.size { rowLo := 9, rowHi := 8, colLo := 0, colHi := 255 } = 0 ∧
    (w.chan 2).state = .seeking ∧ w.walker.cursors.get 2 = none ∧ (seeking none).held = false ∧
    ((seeking none).walker.seek.map (fun k => (k.request, (k.index + 1) % k.size))) = some (none, 0) ∧
    ((seeking (some spot)).walker.seek.map Seek.request) = some (some spot) ∧
    (seeking (some spot)).map.at spot = some 0 ∧ (seeking (some spot)).tube 0 = some (tubeIn .untested) ∧
    (seeking (some spot)).claimReason 2 (tubeIn .untested) = none ∧
    ({ seeking (some spot) with interlock := { low := true, changeCount := 0, latch := true } } : State).claimReason 2
      (tubeIn .untested) = some .interlock ∧ (placed .seeking).passesTests 2 spot = true ∧
    (placed .seeking).passesTests 2 { row := 0, col := 0 } = false := by decide

theorem witness_WalkVisitsOnce :
    11 < seekConfig.window.size ∧ seekConfig.window.holds { row := 33, col := 102 } = true ∧
    seekConfig.startCorner = .bottomRight ∧ Config.default.startCorner = .topLeft ∧
    Config.default.majorAxis = .row ∧ seekConfig.majorAxis = .column := by decide

theorem witness_StepKeepsNotices :
    ({ State.reset with notices := fullSet, pending := [.reset] } : State).notices.sound ∧
    ∃ t, step { State.reset with notices := fullSet, pending := [.reset] } = .next t :=
  ⟨⟨by decide +kernel, by decide +kernel, by decide +kernel⟩, _, rfl⟩

theorem witness_StepKeepsInterlock :
    ({ halted .probing with pending := [.reportTake] } : State).interlocked ∧ (halted .probing).interlock.latch = true ∧
    ∃ t, step { halted .probing with pending := [.reportTake] } = .next t :=
  ⟨fun _ => by decide, by decide, _, rfl⟩

theorem witness_StepKeepsCensus :
    ({ pass .probing .inTest with pending := [.reportTake] } : State).censusTrue ∧
    ∃ t, step { pass .probing .inTest with pending := [.reportTake] } = .next t := by
  refine ⟨?_, _, rfl⟩
  unfold State.censusTrue
  decide

theorem witness_StepKeepsPool :
    (review .tested (entryIn .new)).store.conserved ∧
    ∃ t, step { review .tested (entryIn .new) with pending := [.plugTube crew (.index 0)] } = .next t := by
  have hl : (review .tested (entryIn .new)).store.free.toList = List.range' 1 16383 := by
    simp [review, withEntry, FreeList.toList, Config.poolSize]
  have he : ∀ n, (review .tested (entryIn .new)).store.entry n = if n = 0 then some (entryIn .new) else none := by
    intro n
    by_cases h : n = 0
    · subst h
      rfl
    · simp [review, withEntry, Store.entry, Store.slot, sparseGet, emptySlot, Ne.symm h]
      simp [h]
  refine ⟨⟨?_, ?_, ?_, ?_⟩, _, rfl⟩
  · rw [hl]
    exact List.nodup_range'
  · intro n hn
    rw [hl, List.mem_range'_1] at hn
    rw [he, if_neg (by omega)]
    exact ⟨by simp only [Config.poolSize]; omega, rfl⟩
  · intro n hn hx
    rw [he] at hx
    rw [hl, List.mem_range'_1]
    simp only [Config.poolSize] at hn
    by_cases h : n = 0
    · simp [h] at hx
    · omega
  · intro n hn
    simp only [Config.poolSize] at hn
    rw [he, if_neg (by omega)]

theorem witness_StepKeepsForms :
    (review .tested (entryIn .new)).canonical ∧ (review .tested (entryIn .new)).bounded ∧
    ∃ t, step { review .tested (entryIn .new) with pending := [.clearLayout planner] } = .next t := by
  refine ⟨⟨by decide, by decide⟩, ?_, _, rfl⟩
  unfold State.bounded
  decide

theorem witness_ResetMeetsPromises : State.reset.store.free.fresh ≤ 16384 := by decide

end Sys2Proof.Tests
end

section
/-! STOP_CHANNEL (R56): what each channel state does under it, and why an INTERLOCK_CLEAR passes over every channel
that is not HALTED. -/

namespace Sys2Proof.Machine

/-! ## The two commands at the dispatch -/

theorem exec_stopChannel (rq : Requester) (n : Nat) (s : State) :
    exec (.stopChannel rq n) s =
      .next (s.takeRequest .stopChannel rq (numberInRange n) (fun s => s.stopChannel (eightOf n))) := rfl

theorem exec_interlockClear (rq : Requester) (s : State) :
    exec (.interlockClear rq) s = .next (s.takeRequest .interlockClear rq true State.interlockClear) := rfl

/-- A STOP_CHANNEL that the port takes names one of the eight channels, so the command itself runs. -/
theorem exec_stopChannel_takes {s : State} {rq : Requester} (h : s.takes .stopChannel rq = true) (n : Fin 8) :
    exec (.stopChannel rq n.val) s = .next (s.stopChannel n) := by
  rw [exec_stopChannel, State.takeRequest_takes h, numberInRange_val, eightOf_val, if_pos rfl]

/-- The permission of R56: the phase plays no part, and of the role codes only PLANNER's and CREW's do. -/
theorem permits_stopChannel (rq : Requester) (p : Phase) :
    Command.permits .stopChannel rq p = true ↔ rq.role = 1 ∨ rq.role = 2 := by
  unfold Command.permits
  match rq.role with
  | 0 | 1 | 2 | 3 | 4 | 5 => simp [roleOf, Command.permitsRole, Command.permitsPhase]
  | n + 6 => simp [roleOf]

/-! ## INTERLOCK_CLEAR and a channel that is not HALTED (R122) -/

@[simp] theorem State.sendClaim_chan (s : State) (k n : Fin 8) (m : MessageKind) :
    (s.sendClaim k m).chan n = s.chan n := by
  rw [State.sendClaim_frame]; rfl

/-- A revived channel leaves every other channel as it is. -/
theorem State.revive_chan_ne (s : State) {k n : Fin 8} (h : k ≠ n) (x : ChanState) :
    (s.revive k x).chan n = s.chan n := by
  rw [State.revive, State.sendClaim_chan, State.loadTimer_chan, if_neg h, State.chan_setChan, if_neg h]

/-- A channel's return touches no other channel. -/
theorem State.returnChannel_chan_ne (s : State) {k n : Fin 8} (h : k ≠ n) :
    (s.returnChannel k).chan n = s.chan n := by
  unfold State.returnChannel
  dsimp only
  split
  · rfl
  · split
    · exact s.revive_chan_ne h _
    · exact s.revive_chan_ne h _
    · rw [State.chan_setChan, if_neg h]
    · rw [State.testSeek_chan, if_neg (fun hk => h hk.1), State.chan_setChan, if_neg h]

/-- A channel's return passes over a channel that is not HALTED, its own or another. -/
theorem State.returnChannel_chan_of_not_halted (s : State) (k : Fin 8) {n : Fin 8} (h : (s.chan n).state ≠ .halted) :
    (s.returnChannel k).chan n = s.chan n := by
  by_cases hk : k = n
  · subst hk
    rw [State.returnChannel, if_pos h]
  · exact s.returnChannel_chan_ne hk

theorem State.returnChannels_chan_of_not_halted {n : Fin 8} (l : List (Fin 8)) :
    ∀ s : State, (s.chan n).state ≠ .halted → (l.foldl State.returnChannel s).chan n = s.chan n := by
  induction l with
  | nil => exact fun _ _ => rfl
  | cons k l ih =>
    intro s h
    have hk := s.returnChannel_chan_of_not_halted k h
    rw [List.foldl_cons, ih _ (hk ▸ h), hk]

/-- Refused or accepted, INTERLOCK_CLEAR changes channels by their returns alone (R122). -/
theorem State.interlockClear_chan_of_not_halted (s : State) {n : Fin 8} (h : (s.chan n).state ≠ .halted) :
    s.interlockClear.chan n = s.chan n := by
  unfold State.interlockClear
  split
  · rfl
  · split
    · rfl
    · dsimp only
      rw [State.chan, State.answer_chans]
      exact State.returnChannels_chan_of_not_halted eightNumbers
        { s with interlock := { s.interlock with latch := false } } h

/-- Whatever becomes of an INTERLOCK_CLEAR at the port or in the interlock, a channel that is not HALTED stays as it
is. -/
theorem exec_interlockClear_chan_of_not_halted {rq : Requester} {s t : State} {n : Fin 8}
    (h : (s.chan n).state ≠ .halted) (ht : exec (.interlockClear rq) s = .next t) : t.chan n = s.chan n := by
  rw [exec_interlockClear] at ht
  injection ht with ht
  subst ht
  obtain ⟨-, he⟩ | ⟨-, -, he⟩ | ⟨-, -, ⟨_, -, he⟩ | ⟨-, he⟩⟩ :=
    s.takeRequest_cases .interlockClear rq true State.interlockClear
  · rw [he]
  · rw [he]; rfl
  · rw [he]; rfl
  · rw [he, s.interlockClear_chan_of_not_halted h]

/-! ## STOP_CHANNEL by channel state (R56) -/

/-- The channel that STOP_CHANNEL takes out of use: OFF without a prior state,
while the exhausted flag, the configuration and the calibration are kept. -/
def Channel.stopped (c : Channel) : Channel := { c with state := .off, prior := none, interrupted := none }

theorem State.stopChannel_off {s : State} {n : Fin 8} (h : (s.chan n).state = .off) :
    s.stopChannel n = s.answer .stopChannel .ok [] := by
  simp only [State.stopChannel, h]

theorem State.stopChannel_idle {s : State} {n : Fin 8} (h : (s.chan n).state = .idle) :
    s.stopChannel n = (s.setChan n (s.chan n).stopped).answer .stopChannel .ok [] := by
  simp only [State.stopChannel, h, Channel.stopped]

theorem State.stopChannel_seeking {s : State} {n : Fin 8} (h : (s.chan n).state = .seeking) :
    s.stopChannel n = ((s.abandonSeek n).setChan n (s.chan n).stopped).answer .stopChannel .ok [] := by
  simp only [State.stopChannel, h, Channel.stopped]

theorem State.stopChannel_halted_free {s : State} {n : Fin 8} (h : (s.chan n).state = .halted)
    (hc : (s.chan n).claim = none) :
    s.stopChannel n = (s.setChan n (s.chan n).stopped).answer .stopChannel .ok [] := by
  simp only [State.stopChannel, h, hc, Channel.stopped]

theorem State.stopChannel_claimHeld {s : State} {n : Fin 8}
    (h : (s.chan n).state = .assigned ∨ (s.chan n).state = .probing ∨ (s.chan n).state = .stalled ∨
      ((s.chan n).state = .halted ∧ (s.chan n).claim ≠ none)) :
    s.stopChannel n = s.answer .stopChannel .claimHeld [] := by
  unfold State.stopChannel
  dsimp only
  obtain h | h | h | ⟨h, hc⟩ := h
  · simp only [h]
  · simp only [h]
  · simp only [h]
  · obtain ⟨c, hc⟩ := Option.ne_none_iff_exists'.mp hc
    simp only [h, hc]

/-! ## The walker's seek when a channel's seek is abandoned (R44) -/

theorem Walker.abandon_seek_own {w : Walker} {n : Fin 8} (h : ∃ j, w.seek = some j ∧ j.chan = n) :
    (w.abandon n).seek = none := by
  obtain ⟨j, hj, hn⟩ := h
  simp only [Walker.abandon, hj, hn, if_true]

theorem Walker.abandon_seek_other {w : Walker} {n : Fin 8} (h : ∀ j, w.seek = some j → j.chan ≠ n) :
    (w.abandon n).seek = w.seek := by
  unfold Walker.abandon
  cases hw : w.seek with
  | none => rfl
  | some j => exact if_neg (h j hw)

/-- Settles O23: the permission by role, the INTERLOCK_CLEAR by the channels it passes over, and the command by the
channel's state. -/
theorem stopChannelStops : Obligations.StopChannelStops := by
  unfold Obligations.StopChannelStops
  refine ⟨permits_stopChannel, fun rq s t n hoff ht => ?_, fun rq s n htakes => ?_⟩
  · exact exec_interlockClear_chan_of_not_halted (by rw [hoff]; decide) ht
  · rw [exec_stopChannel_takes htakes n]
    refine ⟨fun hoff => ?_, fun hfree => ?_, fun hseek => ?_, fun hheld => ?_⟩
    · rw [State.stopChannel_off hoff]
    · obtain hidle | ⟨hhalt, hclaim⟩ := hfree
      · rw [State.stopChannel_idle hidle]; rfl
      · rw [State.stopChannel_halted_free hhalt hclaim]; rfl
    · refine ⟨(s.walker.abandon n).seek, ?_, Walker.abandon_seek_own, Walker.abandon_seek_other⟩
      rw [State.stopChannel_seeking hseek]; rfl
    · rw [State.stopChannel_claimHeld hheld]

end Sys2Proof.Machine
end

section
/-! RESTART_LINK (R97): its permission, its range check, and what the receiver's state decides. -/

namespace Sys2Proof.Machine

/-! ## The command at the dispatch -/

theorem exec_restartLink (rq : Requester) (n : Nat) (s : State) :
    exec (.restartLink rq n) s =
      .next (s.takeRequest .restartLink rq (numberInRange n) (fun s => s.restartLink (eightOf n))) := rfl

/-- R182 gives RESTART_LINK the roles and the phases of STOP_CHANNEL. -/
theorem permits_restartLink (rq : Requester) (p : Phase) :
    Command.permits .restartLink rq p = true ↔ rq.role = 1 ∨ rq.role = 2 :=
  have same_row : Command.permits .restartLink rq p = Command.permits .stopChannel rq p := rfl
  same_row ▸ permits_stopChannel rq p

/-- A number above 7 fails the range check (check 5 of R181). -/
theorem numberInRange_of_gt {n : Nat} (h : 7 < n) : numberInRange n = false :=
  decide_eq_false (Nat.not_le.mpr h)

theorem exec_restartLink_range {s : State} {rq : Requester} (h : s.takes .restartLink rq = true) {n : Nat}
    (hn : 7 < n) : exec (.restartLink rq n) s = .next (s.answer .restartLink .range []) := by
  rw [exec_restartLink, State.takeRequest_takes h, numberInRange_of_gt hn, if_neg Bool.false_ne_true]

/-- A RESTART_LINK that the port takes and that names one of the eight links runs. -/
theorem exec_restartLink_takes {s : State} {rq : Requester} (h : s.takes .restartLink rq = true) (n : Fin 8) :
    exec (.restartLink rq n.val) s = .next (s.restartLink n) := by
  rw [exec_restartLink, State.takeRequest_takes h, numberInRange_val, eightOf_val, if_pos rfl]

/-! ## RESTART_LINK by receive state (R97) -/

theorem State.restartLink_fault {s : State} {n : Fin 8} (h : (s.link n).rx = .fault) :
    s.restartLink n = (s.setLinkRx n { s.link n with rx := .hunt, queue := [] }).answer .restartLink .ok
      (byte1 RxState.hunt.code ++ byte1 (s.link n).queue.length) := by
  simp only [State.restartLink, if_pos h]

/-- Outside FAULT the queue alone changes: the receive state and the frame in progress stay. -/
theorem State.restartLink_of_ne_fault {s : State} {n : Fin 8} (h : (s.link n).rx ≠ .fault) :
    s.restartLink n = (s.setLinkRx n { s.link n with queue := [] }).answer .restartLink .ok
      (byte1 (s.link n).rx.code ++ byte1 (s.link n).queue.length) := by
  simp only [State.restartLink, if_neg h]

/-- Settles O30: the permission by role, the range check by the link's number, and the command by the receive state. -/
theorem restartLinkEmpties : Obligations.RestartLinkEmpties := by
  unfold Obligations.RestartLinkEmpties
  refine ⟨permits_restartLink, fun rq s htakes => ⟨fun n hn => exec_restartLink_range htakes hn, fun n => ?_⟩⟩
  rw [exec_restartLink_takes htakes n]
  refine ⟨fun hfault => ?_, fun hother => ?_⟩
  · rw [State.restartLink_fault hfault, State.setLinkRx]
  · rw [State.restartLink_of_ne_fault hother, State.setLinkRx]

end Sys2Proof.Machine
end

section
/-! The comparison of two calls (R165): which rows of its table agree, and what every other pair leaves. -/

namespace Sys2Proof.Machine

/-- Two depths within a tolerance, as a bound on each from the other. -/
theorem apart_le_iff {a b tol : Nat} : apart a b ≤ tol ↔ a ≤ b + tol ∧ b ≤ a + tol := by
  unfold apart
  omega

/-! ## The rows of R165 -/

theorem Entry.compare_dismiss_of_noneFound_or_geometry (e : Entry) (tol : Nat) {c : Call}
    (h : c = .noneFound ∨ c = .geometry) :
    e.compare tol c c = e.dismiss := by
  obtain rfl | rfl := h
  · rfl
  · rfl

theorem Entry.compare_depth_within (e : Entry) {tol a b : Nat} (h : apart a b ≤ tol) :
    e.compare tol (.depth a) (.depth b) = e.finalize (.depth (max a b)) := if_pos h

theorem Entry.compare_depth_beyond (e : Entry) {tol a b : Nat} (h : ¬ apart a b ≤ tol) :
    e.compare tol (.depth a) (.depth b) = e.dispute := if_neg h

/-- Calls of different codes never agree: each of the table's other rows compares two calls of one code. -/
theorem Entry.compare_of_code_ne (e : Entry) (tol : Nat) {p q : Call} (h : p.code ≠ q.code) :
    e.compare tol p q = e.dispute := by
  unfold Entry.compare
  split
  case h_1 => exact absurd rfl h
  case h_2 => exact absurd rfl h
  case h_3 => exact absurd rfl h
  case h_4 => exact absurd rfl h
  case h_5 => rfl

/-- Settles O35: the rows of the table for equal codes, the two sides of the tolerance, and the calls of different
codes. -/
theorem callsCompared : Obligations.CallsCompared := by
  unfold Obligations.CallsCompared
  intro e tol
  refine ⟨fun c hc => ?dismissing, fun a b hab hba => ?within, ?nonQuantifiable, fun a b hfar => ?beyond,
    fun p q hcode => ?otherCode⟩
  case dismissing => exact e.compare_dismiss_of_noneFound_or_geometry tol hc
  case within => exact e.compare_depth_within (apart_le_iff.mpr ⟨hab, hba⟩)
  case nonQuantifiable => rfl
  case beyond =>
    have hapart : ¬ apart a b ≤ tol := fun hle => by
      obtain ⟨hab, hba⟩ := apart_le_iff.mp hle
      omega
    exact e.compare_depth_beyond hapart
  case otherCode => exact e.compare_of_code_ne tol hcode

end Sys2Proof.Machine
end

section
/-! What one change of a block keeps of the promises about every moment: the pending set (R190), the census (R18), the
pool and its free list (R142), the links and the transmitters (R84, R93, R99). -/

namespace Sys2Proof.Machine

/-! ## The pending set (R187 to R190) -/

theorem insertNotice_perm (n : Notice) (l : List Notice) : (insertNotice n l).Perm (n :: l) := by
  induction l with
  | nil => exact .refl _
  | cons m t ih =>
    rw [insertNotice]
    split
    · exact .refl _
    · exact (ih.cons m).trans (.swap n m t)

theorem lowestNotice_mem {l : Levels} {p : List Notice} {m : Notice} (h : lowestNotice l p = some m) : m ∈ p := by
  induction p generalizing m with
  | nil => exact nomatch h
  | cons n t ih =>
    simp only [lowestNotice] at h
    split at h
    · cases h; exact List.mem_cons_self
    case h_2 low hlow =>
      have hm : m = n ∨ m = low := by
        cases h; split
        · exact .inl rfl
        · exact .inr rfl
      obtain rfl | rfl := hm
      · exact List.mem_cons_self
      · exact List.mem_cons_of_mem _ (ih hlow)

theorem lowestNotice_none {l : Levels} {p : List Notice} (h : lowestNotice l p = none) : p = [] := by
  cases p with
  | nil => rfl
  | cons n t =>
    simp only [lowestNotice] at h
    split at h
    · exact nomatch h
    · exact nomatch h

/-- A notice of a class not at level 0 that enters a sound set of fewer than 32, and is not in it, leaves it sound. -/
theorem NoticeUnit.sound_insert {u : NoticeUnit} {p : List Notice} {n : Notice} (hlen : p.length < Config.noticeLimit)
    (hnd : p.Nodup) (hlev : ∀ m ∈ p, u.levels.get m.cls ≠ 0) (hnew : n ∉ p) (hn : u.levels.get n.cls ≠ 0) (o : Bool) :
    NoticeUnit.sound { u with pending := insertNotice n p, overflow := o } := by
  have hp := insertNotice_perm n p
  refine ⟨?_, hp.nodup_iff.mpr (List.nodup_cons.mpr ⟨hnew, hnd⟩), fun m hm => ?_⟩
  · show (insertNotice n p).length ≤ _
    rw [hp.length_eq]
    exact hlen
  · obtain rfl | hm := List.mem_cons.mp (hp.mem_iff.mp hm)
    · exact hn
    · exact hlev m hm

/-- Any part of a sound set is sound. -/
theorem NoticeUnit.sound_keep {u : NoticeUnit} (h : u.sound) {rest : List Notice} (hr : rest.Sublist u.pending) :
    (u.keep rest).sound := by
  obtain ⟨hlen, hnd, hlev⟩ := h
  exact ⟨hr.length_le.trans hlen, hnd.sublist hr, fun n hn => hlev n (hr.subset hn)⟩

theorem NoticeUnit.sound_keptByPosts : KeptByPosts NoticeUnit.sound := by
  intro u c k h
  obtain ⟨hlen, hnd, hlev⟩ := h
  unfold NoticeUnit.post
  dsimp only
  split
  case isTrue => exact ⟨hlen, hnd, hlev⟩
  case isFalse hc =>
    split
    case isTrue => exact ⟨hlen, hnd, hlev⟩
    case isFalse hnew =>
      split
      case isTrue hroom => exact NoticeUnit.sound_insert hroom hnd hlev hnew hc u.overflow
      case isFalse hfull =>
        split
        case h_1 hlow => exact absurd (by rw [lowestNotice_none hlow]; decide) hfull
        case h_2 m hlow =>
          split
          case isTrue =>
            have hm := lowestNotice_mem hlow
            have hpos := List.length_pos_of_mem hm
            refine NoticeUnit.sound_insert ?_ (hnd.erase m) (fun n hn => hlev n (List.mem_of_mem_erase hn))
              (fun hn => hnew (List.mem_of_mem_erase hn)) hc true
            rw [List.length_erase_of_mem hm]
            omega
          case isFalse => exact ⟨hlen, hnd, hlev⟩

theorem NoticeUnit.sound_emptied (u : NoticeUnit) : u.emptied.sound :=
  ⟨Nat.zero_le _, List.nodup_nil, fun _ h => nomatch h⟩

theorem Levels.get_set (l : Levels) (c d : NoticeClass) (v : Nat) :
    (l.set c v).get d = if c = d then v else l.get d := by
  cases c <;> cases d <;> rfl

theorem NoticeUnit.sound_setLevel {u : NoticeUnit} (h : u.sound) (c : NoticeClass) (v : Nat) :
    (u.setLevel c v).sound := by
  obtain ⟨hlen, hnd, hlev⟩ := h
  unfold NoticeUnit.setLevel
  dsimp only
  split
  case isTrue hv =>
    have hsub : (u.pending.filter (fun n => decide (n.cls ≠ c))).Sublist u.pending := List.filter_sublist
    refine ⟨hsub.length_le.trans hlen, hnd.sublist hsub, fun n hn => ?_⟩
    have hne : n.cls ≠ c := of_decide_eq_true (List.mem_filter.mp hn).2
    show (u.levels.set c v).get n.cls ≠ 0
    rw [Levels.get_set, if_neg hne.symm]
    exact hlev n (hsub.subset hn)
  case isFalse hv =>
    refine ⟨hlen, hnd, fun n hn => ?_⟩
    show (u.levels.set c v).get n.cls ≠ 0
    rw [Levels.get_set]
    split
    · exact hv
    · exact hlev n hn

theorem NoticeUnit.sound_remove {u : NoticeUnit} (h : u.sound) (o : Option Notice) : (u.remove o).sound := by
  cases o with
  | none => exact h
  | some n => exact NoticeUnit.sound_keep h List.erase_sublist

/-! ## The census (R18) -/

theorem Census.count_setCount (c : Census) (x y : TubeState) (v : Nat) :
    (c.setCount x v).count y = if x = y then v else c.count y := by
  cases x <;> cases y <;> rfl

theorem Census.ext_counts {c d : Census} (hs : ∀ x, c.count x = d.count x) (hp : c.planned = d.planned)
    (ho : c.plannedOpen = d.plannedOpen) : c = d := by
  obtain ⟨_, _, _, _, _, _, _, _, _, _, _, _⟩ := c
  obtain ⟨_, _, _, _, _, _, _, _, _, _, _, _⟩ := d
  have h0 := hs .untested; have h1 := hs .claimed; have h2 := hs .inTest; have h3 := hs .tested
  have h4 := hs .underReview; have h5 := hs .cleared; have h6 := hs .plugCalled; have h7 := hs .plugged
  have h8 := hs .retest; have h9 := hs .blocked
  simp only [Census.count] at h0 h1 h2 h3 h4 h5 h6 h7 h8 h9
  simp only at hp ho
  simp only [*]

theorem Census.count_enter (c : Census) (t : Tube) (x : TubeState) :
    (c.enter t).count x = c.count x + if t.state = x then 1 else 0 := by
  have h : (c.enter t).count x = (c.setCount t.state (c.count t.state + 1)).count x := by cases x <;> rfl
  rw [h, Census.count_setCount]
  split
  case isTrue h => rw [h]
  case isFalse => rfl

theorem Census.count_leave (c : Census) (t : Tube) (x : TubeState) :
    (c.leave t).count x = c.count x - if t.state = x then 1 else 0 := by
  have h : (c.leave t).count x = (c.setCount t.state (c.count t.state - 1)).count x := by cases x <;> rfl
  rw [h, Census.count_setCount]
  split
  case isTrue h => rw [h]
  case isFalse => rfl

theorem Census.total_enter (c : Census) (t : Tube) : (c.enter t).total = c.total + 1 := by
  cases h : t.state <;> simp only [Census.enter, h, Census.setCount, Census.count, Census.total, Census.toList,
    List.sum_cons, List.sum_nil] <;> omega

theorem censusOf_append (l : List Tube) (t : Tube) : censusOf (l ++ [t]) = (censusOf l).enter t := by
  rw [censusOf, List.foldl_append]; rfl

theorem toNat_eq_ite (b : Bool) : b.toNat = if b = true then 1 else 0 := by cases b <;> rfl

theorem censusOf_count (l : List Tube) (x : TubeState) :
    (censusOf l).count x = l.countP (fun t => decide (t.state = x)) := by
  induction l using List.reverseRecOn with
  | nil => cases x <;> rfl
  | append_singleton l t ih => rw [censusOf_append, Census.count_enter, List.countP_append, List.countP_singleton, ih]; simp

theorem censusOf_planned (l : List Tube) : (censusOf l).planned = l.countP Tube.planned := by
  induction l using List.reverseRecOn with
  | nil => rfl
  | append_singleton l t ih =>
    rw [censusOf_append, (Census.enter_counts _ t).1, List.countP_append, List.countP_singleton, ih, toNat_eq_ite]

theorem censusOf_plannedOpen (l : List Tube) : (censusOf l).plannedOpen = l.countP Tube.isOpen := by
  induction l using List.reverseRecOn with
  | nil => rfl
  | append_singleton l t ih =>
    rw [censusOf_append, (Census.enter_counts _ t).2, List.countP_append, List.countP_singleton, ih, toNat_eq_ite]

theorem censusOf_total (l : List Tube) : (censusOf l).total = l.length := by
  induction l using List.reverseRecOn with
  | nil => rfl
  | append_singleton l t ih => rw [censusOf_append, Census.total_enter, ih, List.length_append]; rfl

theorem Census.leave_enter (c : Census) (t : Tube) : (c.enter t).leave t = c := by
  refine Census.ext_counts (fun x => ?_) ?_ ?_
  · rw [Census.count_leave, Census.count_enter, Nat.add_sub_cancel]
  · rw [(Census.leave_counts _ t).1, (Census.enter_counts c t).1, Nat.add_sub_cancel]
  · rw [(Census.leave_counts _ t).2, (Census.enter_counts c t).2, Nat.add_sub_cancel]

theorem censusOf_dropLast {l : List Tube} {t : Tube} (h : l.getLast? = some t) :
    censusOf l.dropLast = (censusOf l).leave t := by
  obtain ⟨r, rfl⟩ := List.getLast?_eq_some_iff.mp h
  rw [List.dropLast_concat, censusOf_append, Census.leave_enter]

/-- The counts of a list with one record replaced: less the old one, and the new one besides. -/
theorem countP_set_of_getElem? {p : Tube → Bool} {l : List Tube} {i : Nat} {old : Tube} (h : l[i]? = some old)
    (new : Tube) :
    (l.set i new).countP p = l.countP p - (if p old = true then 1 else 0) + (if p new = true then 1 else 0) := by
  obtain ⟨hi, rfl⟩ := List.getElem?_eq_some_iff.mp h
  exact List.countP_set hi

theorem censusOf_set {l : List Tube} {i : Nat} {old : Tube} (h : l[i]? = some old) (new : Tube) :
    censusOf (l.set i new) = (censusOf l).move old new := by
  unfold Census.move
  refine Census.ext_counts (fun x => ?_) ?_ ?_
  · rw [Census.count_enter, Census.count_leave, censusOf_count, censusOf_count, countP_set_of_getElem? h]
    simp only [decide_eq_true_eq]
  · rw [(Census.enter_counts _ new).1, (Census.leave_counts _ old).1, censusOf_planned, censusOf_planned,
      countP_set_of_getElem? h, toNat_eq_ite, toNat_eq_ite]
  · rw [(Census.enter_counts _ new).2, (Census.leave_counts _ old).2, censusOf_plannedOpen, censusOf_plannedOpen,
      countP_set_of_getElem? h, toNat_eq_ite, toNat_eq_ite]

/-! ## The pool and its free list (R142) -/

/-- A write into an entry in use moves nothing between the free list and the entries in use. -/
theorem Store.conserved_setEntry {st : Store} (h : st.conserved) {n : Nat} (hn : st.entry n ≠ none) (e : Entry) :
    (st.setEntry n e).conserved := by
  obtain ⟨hnd, hfree, hin, hout⟩ := h
  have hentry : ∀ k, (st.setEntry n e).entry k = none ↔ st.entry k = none := fun k => by
    rw [Store.entry_setEntry]
    split
    case isTrue hk => subst hk; simp [hn]
    case isFalse => rfl
  exact ⟨hnd, fun k hk => ⟨(hfree k hk).1, (hentry k).mpr (hfree k hk).2⟩,
    fun k hk he => hin k hk ((hentry k).mp he), fun k hk => (hentry k).mpr (hout k hk)⟩

theorem Store.lt_poolSize_of_entry {st : Store} (h : st.conserved) {n : Nat} (hn : st.entry n ≠ none) :
    n < Config.poolSize := by
  obtain ⟨-, -, -, hout⟩ := h
  exact Nat.lt_of_not_le fun hle => hn (hout n hle)

/-- An entry in use that is emptied and put at the tail of the free list (R156). -/
theorem Store.conserved_recycled {st : Store} (h : st.conserved) {n : Nat} (hn : st.entry n ≠ none) {p : PoolSlot}
    (hp : p.content = none) : Store.conserved { st.setSlot n p with free := st.free.put n } := by
  have hlt := Store.lt_poolSize_of_entry h hn
  obtain ⟨hnd, hfree, hin, hout⟩ := h
  have hentry : ∀ k, Store.entry { st.setSlot n p with free := st.free.put n } k = if n = k then none else st.entry k :=
    fun k => by rw [← hp]; exact Store.entry_setSlot st n k p
  have hlist : FreeList.toList (st.free.put n) = st.free.toList ++ [n] := FreeList.put_toList _ _
  refine ⟨?_, fun k hk => ?_, fun k hk he => ?_, fun k hk => ?_⟩
  · rw [hlist]
    exact List.nodup_append.mpr ⟨hnd, List.nodup_singleton n, fun a ha b hb hab =>
      hn (by rw [← List.mem_singleton.mp hb, ← hab]; exact (hfree a ha).2)⟩
  · rw [hentry]
    rw [hlist, List.mem_append, List.mem_singleton] at hk
    obtain hk | rfl := hk
    · exact ⟨(hfree k hk).1, by split; exacts [rfl, (hfree k hk).2]⟩
    · exact ⟨hlt, if_pos rfl⟩
  · rw [hlist, List.mem_append, List.mem_singleton]
    rw [hentry] at he
    split at he
    case isTrue h => exact .inr h.symm
    case isFalse => exact .inl (hin k hk he)
  · rw [hentry]
    split
    · rfl
    · exact hout k hk

/-- The entry at the head of the free list, taken and filled (R151). -/
theorem Store.conserved_taken {st : Store} (h : st.conserved) {n : Nat} {rest : FreeList}
    (ht : st.free.take = some (n, rest)) {p : PoolSlot} (hp : p.content ≠ none) :
    Store.conserved { st.setSlot n p with free := rest } := by
  obtain ⟨hnd, hfree, hin, hout⟩ := h
  have hlist := FreeList.take_toList _ _ _ ht
  rw [hlist] at hnd hfree hin
  obtain ⟨hnot, hrest⟩ := List.nodup_cons.mp hnd
  have hlt := (hfree n List.mem_cons_self).1
  have hentry : ∀ k, Store.entry { st.setSlot n p with free := rest } k = if n = k then p.content else st.entry k :=
    fun k => Store.entry_setSlot st n k p
  refine ⟨hrest, fun k hk => ?_, fun k hk he => ?_, fun k hk => ?_⟩
  · have hne : n ≠ k := fun h => hnot (h ▸ hk)
    rw [hentry, if_neg hne]
    exact hfree k (List.mem_cons_of_mem _ hk)
  · rw [hentry] at he
    split at he
    case isTrue => exact absurd he hp
    case isFalse hne =>
      obtain rfl | hk := List.mem_cons.mp (hin k hk he)
      · exact absurd rfl hne
      · exact hk
  · rw [hentry, if_neg (by omega)]
    exact hout k hk

theorem Store.conserved_powerOn : Store.powerOn.conserved := by
  have hlist : Store.powerOn.free.toList = List.range' 0 Config.poolSize := by
    simp [FreeList.toList, Store.powerOn]
  refine ⟨?_, fun n hn => ⟨?_, rfl⟩, fun n hn _ => ?_, fun _ _ => rfl⟩
  · rw [hlist]; exact List.nodup_range'
  · rw [hlist, List.mem_range'_1] at hn; omega
  · rw [hlist, List.mem_range'_1]; omega

/-! ## Links and transmitters (R84, R93, R99) -/

/-- The message is being sent or waits (R99). -/
def Transmitter.carries (t : Transmitter) (m : Message) : Prop := t.sending = some m ∨ m ∈ t.waiting

/-- The bounds of a receiver's queue and error count (R84, R93). -/
def Link.bounded (l : Link) : Prop := l.queue.length ≤ Config.queueLimit ∧ l.errors ≤ 255

theorem Transmitter.carries_enqueue {t : Transmitter} {m n : Message} (h : (t.enqueue m).carries n) :
    n = m ∨ t.carries n := by
  unfold Transmitter.enqueue at h
  split at h
  · obtain h | h := h
    · exact .inl (Option.some.inj h).symm
    · exact .inr (.inr h)
  · split at h
    · obtain h | h := h
      · exact .inr (.inl h)
      · obtain h | h := List.mem_append.mp h
        · exact .inr (.inr h)
        · exact .inl (List.mem_singleton.mp h)
    · obtain h | h := h
      · exact .inr (.inl h)
      · obtain h | h := List.mem_append.mp h
        · exact .inr (.inr (List.mem_of_mem_drop h))
        · exact .inl (List.mem_singleton.mp h)

theorem Transmitter.enqueue_waiting {t : Transmitter} (h : t.waiting.length ≤ Config.waitLimit) (m : Message) :
    (t.enqueue m).waiting.length ≤ Config.waitLimit := by
  unfold Transmitter.enqueue
  split
  · exact h
  · split
    case isTrue hroom =>
      rw [List.length_append]
      exact hroom
    case isFalse hfull =>
      rw [List.length_append, List.length_drop, List.length_singleton]
      have := show Config.waitLimit = 8 from rfl
      omega

theorem Transmitter.carries_sent {t : Transmitter} {m : Message} (h : t.sent.carries m) : t.carries m := by
  unfold Transmitter.sent at h
  split at h
  case h_1 hs hw =>
    rw [Transmitter.carries, hs, hw]
    obtain h | h := h
    · exact .inr (Option.some.inj h ▸ List.mem_cons_self)
    · exact .inr (List.mem_cons_of_mem _ h)
  case h_2 =>
    obtain h | h := h
    · exact nomatch h
    · exact nomatch h
  case h_3 => exact h

theorem Transmitter.sent_waiting {t : Transmitter} (h : t.waiting.length ≤ Config.waitLimit) :
    t.sent.waiting.length ≤ Config.waitLimit := by
  unfold Transmitter.sent
  split
  case h_1 hw =>
    rw [hw, List.length_cons] at h
    exact Nat.le_of_succ_le h
  case h_2 => exact Nat.zero_le _
  case h_3 => exact h

theorem Link.bounded_fail {l : Link} (h : l.bounded) (e : LinkError) : (l.fail e).bounded :=
  ⟨h.1, Nat.min_le_right _ _⟩

theorem Link.bounded_restart (l : Link) : l.restart.bounded := ⟨Nat.zero_le _, Nat.zero_le _⟩

end Sys2Proof.Machine
end

section
/-! What every command keeps (R18, R84, R93, R99, R121, R142, R190; log 18): one relation between the state before and
the state after, followed through the shared operations to the commands. -/

namespace Sys2Proof.Machine

/-- From `s` to `t` every promise about every moment is kept and the queue stands; when `latched`, which says that the
interlock latch was set as the step began, no ASSIGN message has entered a transmitter. -/
structure State.Keeps (latched : Bool) (s t : State) : Prop where
  pending : t.pending = s.pending
  notices : s.notices.sound → t.notices.sound
  interlocked : s.interlocked → t.interlocked
  assigns : latched = true → ∀ n m, m.kind = .assign → (t.txs.get n).carries m → (s.txs.get n).carries m
  census : s.censusTrue → t.censusTrue
  pool : s.store.conserved → t.store.conserved
  canonical : s.canonical → t.canonical
  bounded : s.bounded → t.bounded

variable {b : Bool}

namespace State.Keeps

theorem refl (s : State) : s.Keeps b s :=
  ⟨rfl, id, id, fun _ _ _ _ h => h, id, id, id, id⟩

theorem trans {s t u : State} (h : s.Keeps b t) (k : t.Keeps b u) : s.Keeps b u :=
  ⟨k.pending.trans h.pending, k.notices ∘ h.notices, k.interlocked ∘ h.interlocked,
   fun hb n m hm hu => h.assigns hb n m hm (k.assigns hb n m hm hu), k.census ∘ h.census, k.pool ∘ h.pool,
   k.canonical ∘ h.canonical, k.bounded ∘ h.bounded⟩

theorem foldl {α : Type} {f : State → α → State} (hf : ∀ (s : State) a, s.Keeps b (f s a)) (l : List α) :
    ∀ s : State, s.Keeps b (l.foldl f s) := by
  induction l with
  | nil => exact refl
  | cons a l ih => exact fun s => (hf s a).trans (ih (f s a))

/-! ## One lemma for each block -/

/-- No promise speaks of the clock, the reset, the frequencies, the seats, the walker, the engine or the port. -/
theorem of_rest (s : State) (clock : Nat) (held : Bool) (cancels : Eight (Option Echo)) (freqs : Four FreqSettings)
    (seats : Four Seat) (walker : Walker) (engine : Fin 8) (hand : Option Hand) (port : Port) :
    s.Keeps b { s with
      clock := clock, held := held, cancels := cancels, freqs := freqs, seats := seats, walker := walker
      engine := engine, hand := hand, port := port } :=
  ⟨rfl, id, id, fun _ _ _ _ h => h, id, id, id, id⟩

theorem of_notices (s : State) {u : NoticeUnit} (h : s.notices.sound → u.sound) : s.Keeps b { s with notices := u } :=
  ⟨rfl, h, id, fun _ _ _ _ h => h, id, id, id, id⟩

theorem of_map (s : State) {m : TubeMap} (hc : s.censusTrue → m.census = censusOf m.tubes)
    (hd : sparseWf none s.map.directory = true → sparseWf none m.directory = true) : s.Keeps b { s with map := m } :=
  ⟨rfl, id, id, fun _ _ _ _ h => h, hc, id, fun h => ⟨hd h.1, h.2⟩, id⟩

theorem of_store (s : State) {st : Store} (hc : s.store.conserved → st.conserved)
    (hp : sparseWf emptySlot s.store.pool = true → sparseWf emptySlot st.pool = true) :
    s.Keeps b { s with store := st } :=
  ⟨rfl, id, id, fun _ _ _ _ h => h, id, hc, fun h => ⟨h.1, hp h.2⟩, id⟩

theorem of_interlock (s : State) {k : Interlock} {v : Eight Channel}
    (h : s.interlocked → k.latch = true → ∀ n, (v.get n).state = .off ∨ (v.get n).state = .halted) :
    s.Keeps b { s with interlock := k, chans := v } :=
  ⟨rfl, id, h, fun _ _ _ _ h => h, id, id, id, id⟩

theorem of_links (s : State) {v : Eight Link} (h : ∀ n, (s.links.get n).bounded → (v.get n).bounded) :
    s.Keeps b { s with links := v } :=
  ⟨rfl, id, id, fun _ _ _ _ h => h, id, id, id, fun hb n =>
    ⟨(h n ⟨(hb n).1, (hb n).2.1⟩).1, (h n ⟨(hb n).1, (hb n).2.1⟩).2, (hb n).2.2⟩⟩

theorem of_txs (s : State) {v : Eight Transmitter}
    (ha : b = true → ∀ n m, m.kind = .assign → (v.get n).carries m → (s.txs.get n).carries m)
    (hw : ∀ n, (s.txs.get n).waiting.length ≤ Config.waitLimit → (v.get n).waiting.length ≤ Config.waitLimit) :
    s.Keeps b { s with txs := v } :=
  ⟨rfl, id, id, ha, id, id, id, fun hb n => ⟨(hb n).1, (hb n).2.1, hw n (hb n).2.2⟩⟩

/-- A change of the map that leaves the directory, the tubes and the census. -/
theorem of_mapRest (s : State) (params : Params) (landmarks : Option (List Nat)) (phase : Phase) (campaign : Nat)
    (armed : Bool) (watches : Four (Option Pos)) :
    s.Keeps b { s with map := { s.map with
      params := params, landmarks := landmarks, phase := phase, campaign := campaign, armed := armed
      watches := watches } } :=
  of_map s id id

/-! ## The shared operations (Ops.lean) -/

theorem post (s : State) (c : NoticeClass) (k : Nat) : s.Keeps b (s.post c k) :=
  of_notices s (NoticeUnit.sound_keptByPosts s.notices c k)

theorem postWatch (s : State) (p : Pos) : s.Keeps b (s.postWatch p) := by
  rw [State.postWatch_frame]
  exact of_notices s (State.postWatch_notices NoticeUnit.sound_keptByPosts s p)

theorem checkCompletion (s : State) : s.Keeps b s.checkCompletion := by
  unfold State.checkCompletion
  split
  · exact refl s
  · split
    · exact of_mapRest ..
    · split
      · exact (post s _ _).trans (of_mapRest ..)
      · exact refl s

theorem armCompletion (s : State) : s.Keeps b s.armCompletion :=
  (of_mapRest s _ _ _ _ true _).trans (checkCompletion _)

theorem completionAfter (s : State) (old : Census) : s.Keeps b (s.completionAfter old) := by
  unfold State.completionAfter
  split
  · exact refl s
  · exact checkCompletion s

/-- A channel replaced: under the latch one that is OFF or HALTED stays so (R121). -/
theorem setChan (s : State) (n : Fin 8) {c : Channel}
    (h : s.interlock.latch = true → (s.chan n).state = .off ∨ (s.chan n).state = .halted →
      c.state = .off ∨ c.state = .halted) : s.Keeps b (s.setChan n c) :=
  of_interlock s fun hs hl m => by
    rw [Eight.get_set]
    split
    case isTrue => exact h hl (hs hl n)
    case isFalse => exact hs hl m

theorem setChan_state (s : State) (n : Fin 8) {c : Channel} (h : c.state = (s.chan n).state) :
    s.Keeps b (s.setChan n c) :=
  setChan s n fun _ hs => h ▸ hs

theorem testSeek (s : State) (n : Fin 8) : s.Keeps b (s.testSeek n) := by
  unfold State.testSeek
  dsimp only
  split
  case isTrue h =>
    refine (setChan s n (c := { s.chan n with state := .seeking }) fun _ hs => ?_).trans (of_rest ..)
    rw [h.1] at hs
    exact hs.elim nofun nofun
  case isFalse => exact refl s

theorem candidatesAt (s : State) (n : Fin 8) : s.Keeps b (s.candidatesAt n) := by
  have clear : ∀ s : State, s.Keeps b
      (if (s.chan n).exhausted then (s.setChan n { s.chan n with exhausted := false }).testSeek n else s) := fun s => by
    split
    · exact (setChan_state s n (c := { s.chan n with exhausted := false }) rfl).trans (testSeek _ n)
    · exact refl s
  unfold State.candidatesAt
  split
  · exact clear s
  · dsimp only
    split
    · exact (of_rest s ..).trans (clear _)
    · exact clear s

theorem candidatesChanged (s : State) : s.Keeps b s.candidatesChanged := foldl candidatesAt _ s

theorem changeTube (s : State) (i : Nat) (f : Tube → Tube) : s.Keeps b (s.changeTube i f) := by
  unfold State.changeTube
  split
  case h_1 => exact refl s
  case h_2 old hold =>
    have ite {c : Prop} [Decidable c] {s t : State} (h : s.Keeps b t) : s.Keeps b (if c then t else s) := by
      split
      · exact h
      · exact refl s
    have replaced : s.Keeps b { s with map := s.map.replace i old (f old) } :=
      of_map s (fun hc => by rw [State.censusTrue] at hc; simp only [TubeMap.replace, censusOf_set hold, hc]) id
    exact replaced |>.trans (ite (post _ _ _)) |>.trans (completionAfter _ _) |>.trans (ite (candidatesChanged _))
      |>.trans (ite (postWatch _ _))

theorem evaluate (s : State) (i : Nat) : s.Keeps b (s.evaluate i) := by
  unfold State.evaluate
  split
  · exact refl s
  · dsimp only
    split
    · exact (changeTube s i _).trans (post _ _ _)
    · exact changeTube s i _

theorem watchTube (s : State) (i : Nat) : s.Keeps b (s.watchTube i) := by
  unfold State.watchTube
  split
  · exact refl s
  · exact postWatch s _

theorem setEntry (s : State) {n : Nat} (hn : s.store.entry n ≠ none) (e : Entry) :
    s.Keeps b { s with store := s.store.setEntry n e } :=
  of_store s (fun h => Store.conserved_setEntry h hn e) (Store.setSlot_canonical _ _ _)

theorem changeStatus (s : State) {n : Nat} (hn : s.store.entry n ≠ none) (e : Entry) :
    s.Keeps b (s.changeStatus n e) :=
  (setEntry s hn e).trans ((evaluate _ _).trans (watchTube _ _))

theorem judgePool (s : State) : s.Keeps b s.judgePool := by
  unfold State.judgePool
  dsimp only
  split
  · exact (of_store s (st := { s.store with warnArmed := false }) id id).trans (post _ _ _)
  · split
    · exact of_store s id id
    · exact refl s

theorem recycle (s : State) {n : Nat} (hn : s.store.entry n ≠ none) : s.Keeps b (s.recycle n) :=
  (of_store s (fun h => Store.conserved_recycled h hn rfl) (Store.setSlot_canonical _ _ _)).trans (judgePool _)

theorem retire (s : State) (n : Nat) : s.Keeps b (s.retire n) := by
  unfold State.retire
  split
  case h_1 => exact refl s
  case h_2 e he =>
    have hn : s.store.entry n ≠ none := by rw [he]; exact nofun
    split
    case h_1 k _ => exact (of_rest s ..).trans (recycle (s.freeSeat k) hn)
    case h_2 => exact recycle s hn

theorem retireList (s : State) (l : List Nat) : s.Keeps b (l.foldl State.retire s) := foldl retire l s

theorem loadTimer (s : State) (n : Fin 8) : s.Keeps b (s.loadTimer n) := setChan_state s n rfl

theorem reloadTimer (s : State) (n : Fin 8) (e : Bool) : s.Keeps b (s.reloadTimer n e) := by
  unfold State.reloadTimer
  split
  · exact loadTimer s n
  · exact refl s

/-- A message enters its transmitter: ASSIGN only while the step's latch is clear (R121). -/
theorem send (s : State) (n : Fin 8) {k : MessageKind} (hk : k = .assign → b = false) (e : Echo) :
    s.Keeps b (s.send n k e) :=
  of_txs s
    (fun hb j m hm hc => by
      rw [Eight.get_set] at hc
      split at hc
      case isTrue hj =>
        subst hj
        obtain rfl | hc := Transmitter.carries_enqueue hc
        · exact absurd (hk hm) (by rw [hb]; decide)
        · exact hc
      case isFalse => exact hc)
    (fun j hj => by
      rw [Eight.get_set]
      split
      case isTrue h => subst h; exact Transmitter.enqueue_waiting hj _
      case isFalse => exact hj)

theorem releaseClaim (s : State) (n : Fin 8) : s.Keeps b (s.releaseClaim n) := by
  unfold State.releaseClaim
  split
  · exact refl s
  · exact (setChan_state s n (c := (s.chan n).dropClaim) rfl).trans (changeTube _ _ _)

/-- A grant comes only while the latch is clear (R47). -/
theorem grant (s : State) (hb : b = false) (hl : s.interlock.latch = false) (n : Fin 8) (i : Nat) (t : Tube) :
    s.Keeps b (s.grant n i t) := by
  refine (changeTube s i (fun t => { t with state := .claimed, claim := some n })).trans ?_
  refine .trans (setChan _ n fun h => ?_) ((loadTimer _ n).trans (send _ n (fun _ => hb) _))
  rw [State.changeTube_frame] at h
  exact absurd h (by rw [hl]; decide)

theorem linkError (s : State) (n : Fin 8) (e : LinkError) : s.Keeps b (s.linkError n e) := by
  rw [State.linkError_frame]
  refine .trans (of_links s (v := s.links.set n ((s.link n).fail e)) fun j hj => ?_)
    (of_notices _ (State.linkError_notices NoticeUnit.sound_keptByPosts s n e))
  rw [Eight.get_set]
  split
  case isTrue h => subst h; exact Link.bounded_fail hj e
  case isFalse => exact hj

theorem setLinkRx (s : State) (n : Fin 8) {l : Link} (h : (s.link n).bounded → l.bounded) :
    s.Keeps b (s.setLinkRx n l) :=
  of_links s fun j hj => by
    rw [Eight.get_set]
    split
    case isTrue e => subst e; exact h hj
    case isFalse => exact hj

theorem abandonSeek (s : State) (n : Fin 8) : s.Keeps b (s.abandonSeek n) := of_rest ..

theorem answer (s : State) (c : Command) (k : Status) (l : List Byte) : s.Keeps b (s.answer c k l) := of_rest ..

theorem start (s : State) (w : Work) : s.Keeps b (s.start w) := of_rest ..

theorem begin (s : State) (w : Work) : s.Keeps b (s.begin w) := of_rest ..

theorem complete (s : State) (c : Command) (k : Status) (l : List Byte) : s.Keeps b (s.complete c k l) := of_rest ..

theorem overrun (s : State) : s.Keeps b s.overrun := of_rest ..

theorem takeRequest {s : State} {c : Command} {rq : Requester} {r : Bool} {act : State → State}
    (h : s.Keeps b (act s)) : s.Keeps b (s.takeRequest c rq r act) := by
  obtain ⟨-, he⟩ | ⟨-, -, he⟩ | ⟨-, -, ⟨_, -, he⟩ | ⟨-, he⟩⟩ := s.takeRequest_cases c rq r act
  · rw [he]; exact refl s
  · rw [he]; exact overrun s
  · rw [he]; exact answer ..
  · rw [he]; exact h

theorem whenRunning {s : State} {act : State → State} (h : s.Keeps b (act s)) : s.Keeps b (s.whenRunning act) := by
  unfold State.whenRunning
  split
  · exact refl s
  · exact h

end State.Keeps

end Sys2Proof.Machine
end

section
/-! Every command keeps the promises (O55 to O59): the meanings of the commands, family by family, and the dispatch. -/

namespace Sys2Proof.Machine

/-- No clause of the claim rule is passed with the latch set (condition 6 of R47). -/
theorem State.latch_clear_of_claimReason {s : State} {n : Fin 8} {t : Tube} (h : s.claimReason n t = none) :
    s.interlock.latch = false := by
  unfold State.claimReason at h
  by_contra hl
  rw [Bool.not_eq_false] at hl
  simp only [hl, if_true] at h
  split_ifs at h

/-- A match is an entry in use (R147). -/
theorem matchEntry_entry {st : Store} {w : Nat} {l : List Nat} {m : Measurement} {n : Nat} {e : Entry}
    (h : matchEntry st w l m = some (n, e)) : st.entry n = some e := by
  unfold matchEntry at h
  split at h
  · exact nomatch h
  case h_2 x hx =>
    split at h
    · cases h
      exact ((Store.mem_listed st l _).mp (nearestEntry_mem m _ _ hx).1).2
    · exact nomatch h

theorem Store.resolve_entry {st : Store} {r : EntryRef} {e : Entry} (h : st.resolve r = some e) :
    st.entry r.number = some e := by
  unfold Store.resolve at h
  split at h
  · exact h
  · exact nomatch h

theorem State.heldEntry_entry {s : State} {k : Fin 4} {r : EntryRef} {e : Entry} (h : s.heldEntry k = some (r, e)) :
    s.store.entry r.number = some e := by
  unfold State.heldEntry at h
  split at h
  · exact nomatch h
  · obtain ⟨x, hx, he⟩ := Option.map_eq_some_iff.mp h
    cases he
    exact hx

variable {b : Bool}

namespace State.Keeps

theorem foldl_of {α : Type} {P : State → Prop} {f : State → α → State}
    (hf : ∀ (s : State) a, P s → P (f s a) ∧ s.Keeps b (f s a)) (l : List α) :
    ∀ s : State, P s → s.Keeps b (l.foldl f s) := by
  induction l with
  | nil => exact fun s _ => refl s
  | cons a l ih => exact fun s hs => (hf s a hs).2.trans (ih (f s a) (hf s a hs).1)

/-! ## The tube map (chapter 1) -/

theorem declare (s : State) (p : Pos) (zone : Nat) (planned : Bool) : s.Keeps b (s.declare p zone planned) := by
  refine .trans (of_map s (fun hc => ?_) ?_) ((completionAfter _ _).trans (candidatesChanged _))
  · rw [State.censusTrue] at hc
    rw [hc, censusOf_append]
  · exact sparseSet_wf none s.map.directory p.cell (some s.map.tubes.length)

theorem runVisits (row zone : Nat) (planned : Bool) (l : List Nat) :
    ∀ r : Run, r.state.Keeps b (l.foldl (Run.visit row zone planned) r).state := by
  induction l with
  | nil => exact fun r => refl r.state
  | cons c l ih =>
    refine fun r => .trans ?_ (ih _)
    unfold Run.visit
    split
    · exact refl _
    · split
      · exact refl _
      · split
        · exact declare r.state _ zone planned
        · exact refl _

theorem defineTubes (s : State) (row first last step zone : Nat) (planned : Bool) :
    s.Keeps b (s.defineTubes row first last step zone planned) :=
  (runVisits row zone planned _ { state := s, declared := 0, skipped := 0, first := none, full := false }).trans
    (answer ..)

theorem removeLast (s : State) : s.Keeps b s.removeLast := by
  unfold State.removeLast
  split
  case h_1 => exact refl s
  case h_2 t ht =>
    refine (retireList s t.entries).trans (.trans (of_map _ (fun hc => ?_) (sparseErase_wf _ _ _)) (completionAfter _ _))
    rw [State.censusTrue] at hc
    have htubes : (t.entries.foldl State.retire s).map.tubes.getLast? = some t := by
      rw [State.retireList_frame]; exact ht
    rw [hc, censusOf_dropLast htubes]

theorem clearLayoutTube (s : State) : s.Keeps b s.clearLayoutTube := by
  unfold State.clearLayoutTube
  split
  · split
    · exact refl s
    · exact (removeLast s).trans (begin ..)
  · exact refl s

theorem loadCurve (s : State) (f : Fin 4) (k : Nat) (l : List CurvePoint) : s.Keeps b (s.loadCurve f k l) := by
  unfold State.loadCurve
  split
  · exact answer ..
  · exact of_rest ..

theorem planTube (s : State) (a : PlanAction) (i : Nat) : s.Keeps b (s.planTube a i) := by
  cases a with
  | set => exact (changeTube s i _).trans (candidatesChanged _)
  | clear => exact changeTube s i _

theorem planRegionTube (s : State) : s.Keeps b s.planRegionTube := by
  unfold State.planRegionTube
  split
  · split
    · exact refl s
    · split
      · exact begin ..
      · split
        · exact (planTube s _ _).trans (begin ..)
        · exact begin ..
  · exact refl s

theorem activate (s : State) : s.Keeps b s.activate :=
  (of_mapRest s _ _ .active ((s.map.campaign + 1) % 65536) _ _).trans (armCompletion _)

theorem openCampaign (s : State) : s.Keeps b s.openCampaign := by
  unfold State.openCampaign
  split
  · exact answer ..
  · split
    · exact answer ..
    · split
      · exact answer ..
      · exact (activate s).trans (answer ..)

theorem closeSeat (s : State) (k : Fin 4) : s.Keeps b (s.closeSeat k) := by
  unfold State.closeSeat
  split
  · exact refl s
  · split
    · exact of_rest ..
    case h_2 he => exact (of_rest s ..).trans (changeStatus (s.freeSeat k) (by rw [State.freeSeat, he]; exact nofun) _)

theorem closeCampaign (s : State) : s.Keeps b s.closeCampaign := by
  unfold State.closeCampaign
  split
  · exact answer ..
  · have closed : s.Keeps b { s with chans := s.chans.map Channel.close } :=
      of_interlock s fun hs hl n => by
        rw [Eight.get_map]
        unfold Channel.close
        obtain h | h := hs hl n
        · rw [State.chan] at h; simp only [h]; exact .inl trivial
        · rw [State.chan] at h; simp only [h]; exact .inl trivial
    exact closed |>.trans (of_rest _ _ _ _ _ _ s.walker.abandonAll _ _ _) |>.trans (foldl closeSeat _ _)
      |>.trans (of_mapRest ..) |>.trans (answer ..)

theorem rollover (s : State) (i : Nat) : s.Keeps b (s.rollover i) := by
  unfold State.rollover
  split
  · exact refl s
  case h_2 t _ =>
    dsimp only
    split
    · exact (retireList s t.entries).trans ((changeTube _ _ _).trans (postWatch _ _))
    · exact (retireList s t.entries).trans (changeTube _ _ _)

theorem rolloverTube (s : State) : s.Keeps b s.rolloverTube := by
  unfold State.rolloverTube
  split
  · split
    · exact (rollover s _).trans (begin ..)
    · exact refl s
  · split
    · exact (rollover s _).trans (begin ..)
    · exact refl s
  · exact refl s

/-! ## The tubes' own commands (chapter 2) -/

theorem plugTube (s : State) (name : TubeName) : s.Keeps b (s.plugTube name) := by
  unfold State.plugTube
  split
  · exact answer ..
  · split
    · exact answer ..
    · split
      · exact answer ..
      · exact (retireList s _).trans ((changeTube _ _ _).trans (answer ..))

theorem unblockTube (s : State) (name : TubeName) : s.Keeps b (s.unblockTube name) := by
  unfold State.unblockTube
  split
  · exact answer ..
  · split
    · exact answer ..
    · exact (changeTube s _ _).trans (answer ..)

theorem requestRetest (s : State) (name : TubeName) : s.Keeps b (s.requestRetest name) := by
  unfold State.requestRetest
  split
  · exact answer ..
  · split
    · exact answer ..
    · split
      · exact answer ..
      · exact (changeTube s _ _).trans (answer ..)

theorem setWatch (s : State) (k : Fin 4) (p : Option Pos) : s.Keeps b (s.setWatch k p) := by
  unfold State.setWatch
  split
  · exact answer ..
  · exact (of_mapRest s _ _ _ _ _ (s.map.watches.set k p)).trans (answer ..)

/-! ## The channels (chapters 3 and 6) -/

theorem configure (s : State) (n : Fin 8) (cfg : Config) : s.Keeps b (s.configure n cfg) := by
  have under : ∀ t : State, t.interlock = s.interlock → t.chan n = s.chan n →
      t.Keeps b (t.setChan n ((s.chan n).reconfigured cfg)) := fun t _ hc =>
    setChan t n fun _ hs => by
      rw [hc] at hs
      obtain h | h := hs
      · exact .inl (by simp [Channel.reconfigured, h])
      · exact .inr (by simp [Channel.reconfigured, h])
  have replaced : s.Keeps b
      ((if (s.chan n).state = .seeking then s.abandonSeek n else s).setChan n ((s.chan n).reconfigured cfg)) := by
    split
    · exact (abandonSeek s n).trans (under _ rfl rfl)
    · exact under s rfl rfl
  have cursor : ∀ t : State, t.Keeps b (if (s.chan n).config.sameSelection cfg then t else t.resetCursor n) :=
    fun t => by
      split
      · exact refl t
      · exact of_rest ..
  exact replaced.trans ((cursor _).trans (testSeek _ n))

theorem setCal (s : State) (n : Fin 8) (f : CalFields) : s.Keeps b (s.setCal n f) := by
  unfold State.setCal
  dsimp only
  split
  · exact answer ..
  · exact (setChan_state s n (c := { s.chan n with cal := f.apply (s.chan n).cal }) rfl).trans (answer ..)

theorem startChannel (s : State) (n : Fin 8) : s.Keeps b (s.startChannel n) := by
  unfold State.startChannel
  dsimp only
  split
  · exact answer ..
  case isFalse hl =>
    split
    · exact answer ..
    · exact (setChan s n (c := { s.chan n with state := .idle, exhausted := false }) fun h => absurd h hl).trans
        ((testSeek _ n).trans (answer ..))

theorem stopChannel (s : State) (n : Fin 8) : s.Keeps b (s.stopChannel n) := by
  have off : ∀ t : State, t.Keeps b (t.setChan n (s.chan n).stopped) := fun t => setChan t n fun _ _ => .inl rfl
  unfold State.stopChannel
  dsimp only
  split
  · exact answer ..
  · exact (off s).trans (answer ..)
  · exact (abandonSeek s n).trans ((off _).trans (answer ..))
  · exact (off s).trans (answer ..)
  · exact answer ..

theorem endPass (s : State) (n : Fin 8) : s.Keeps b (s.setChan n (s.chan n).endPass) :=
  setChan s n fun _ hs => by
    obtain h | h := hs
    · exact .inl (by simp only [Channel.endPass, h]; exact h)
    · exact .inr (by simp only [Channel.endPass, h]; exact h)

theorem abandonPass (s : State) (n : Fin 8) : s.Keeps b (s.abandonPass n) := by
  unfold State.abandonPass
  split
  · exact answer ..
  · exact (send s n (k := .cancel) (fun h => nomatch h) _).trans ((releaseClaim _ n).trans ((endPass _ n).trans ((testSeek _ n).trans (answer ..))))

theorem sendClaim (s : State) (n : Fin 8) {k : MessageKind} (hk : k ≠ .assign) : s.Keeps b (s.sendClaim n k) := by
  unfold State.sendClaim
  split
  · exact refl s
  · exact send s n (fun h => absurd h hk) _

/-- A channel leaves STALLED or HALTED: under the latch none that is OFF or HALTED may (R121). -/
theorem revive (s : State) (n : Fin 8) (x : ChanState)
    (h : s.interlock.latch = true → ¬ ((s.chan n).state = .off ∨ (s.chan n).state = .halted)) :
    s.Keeps b (s.revive n x) :=
  (setChan s n (c := { s.chan n with state := x, prior := none, interrupted := none }) fun hl hs => absurd hs (h hl)).trans
    ((loadTimer _ n).trans (sendClaim _ n (fun h => nomatch h)))

theorem resume (s : State) (n : Fin 8) : s.Keeps b (s.resume n) := by
  unfold State.resume
  dsimp only
  split
  · exact answer ..
  case isFalse h =>
    rw [ne_eq, not_not] at h
    exact (revive s n _ fun _ => by rw [h]; decide).trans (answer ..)

theorem channelReset (s : State) (n : Fin 8) : s.Keeps b (s.channelReset n) :=
  have off : ∀ t : State, t.Keeps b (t.setChan n
      { (t.chan n).dropClaim with state := .off, prior := none, interrupted := none, exhausted := false }) :=
    fun t => setChan t n fun _ _ => .inl rfl
  abandonSeek s n |>.trans (sendClaim _ n (k := .cancel) (fun h => nomatch h)) |>.trans (releaseClaim _ n) |>.trans (off _)
    |>.trans (of_rest ..) |>.trans (setLinkRx _ n fun _ => Link.bounded_restart _) |>.trans (answer ..)

theorem assignClaim (s : State) (hb : b = s.interlock.latch) (n : Fin 8)
    (hc : (s.chan n).state = .idle ∨ (s.chan n).state = .seeking) (i : Nat) (t : Tube) :
    s.Keeps b (s.assignClaim n i t) := by
  have idled : s.Keeps b ((s.abandonSeek n).setChan n { s.chan n with state := .idle }) :=
    (abandonSeek s n).trans (setChan _ n fun _ hs => by
      obtain h | h := hc <;> exact absurd hs (by rw [show (s.abandonSeek n).chan n = s.chan n from rfl, h]; decide))
  unfold State.assignClaim
  dsimp only
  split
  · exact idled.trans ((testSeek _ n).trans (answer ..))
  case h_2 h =>
    have hl := State.latch_clear_of_claimReason h
    exact idled.trans ((grant _ (hb.trans hl) hl n i t).trans (answer ..))

theorem assignTube (s : State) (hb : b = s.interlock.latch) (n : Fin 8) (name : TubeName) :
    s.Keeps b (s.assignTube n name) := by
  unfold State.assignTube
  dsimp only
  split
  · exact answer ..
  · split
    · exact answer ..
    case isFalse h =>
      split
      · exact answer ..
      · exact assignClaim s hb n (by tauto) _ _

theorem expire (s : State) (n : Fin 8) : s.Keeps b (s.expire n) := by
  have stalled : (s.chan n).state ≠ .off → (s.chan n).state ≠ .halted →
      s.Keeps b ((((s.atTick n).setChan n (s.chan n).stall).sendClaim n .hold).post .stall n.val) := fun h1 h2 =>
    of_rest s .. |>.trans (setChan (s.atTick n) n fun _ hs => absurd hs (not_or.mpr ⟨h1, h2⟩))
      |>.trans (sendClaim _ n (k := .hold) (fun h => nomatch h)) |>.trans (post _ _ _)
  unfold State.expire
  dsimp only
  split
  case h_1 h => exact stalled (by rw [h]; nofun) (by rw [h]; nofun)
  case h_2 h => exact stalled (by rw [h]; nofun) (by rw [h]; nofun)
  all_goals exact refl s

theorem stallTick (s : State) (n : Fin 8) : s.Keeps b (s.stallTick n) := by
  unfold State.stallTick
  dsimp only
  split
  · exact refl s
  · split
    · exact expire s n
    · exact (of_rest s ..).trans (setChan_state (s.atTick n) n rfl)

theorem stallExpiry (s : State) (n : Fin 8) : s.Keeps b (s.stallExpiry n) := by
  unfold State.stallExpiry
  dsimp only
  split
  · exact expire s n
  · exact refl s

/-! ## The access interlock (section 6.5) -/

/-- With the latch cleared a HALTED channel may return to any state (R122). -/
theorem returnChannel (s : State) (hl : s.interlock.latch = false) (n : Fin 8) :
    (s.returnChannel n).interlock.latch = false ∧ s.Keeps b (s.returnChannel n) := by
  have clear : ¬ s.interlock.latch = true := by rw [hl]; decide
  unfold State.returnChannel
  dsimp only
  split
  · exact ⟨hl, refl s⟩
  · split
    · exact ⟨by rw [State.revive_frame]; exact hl, revive s n _ fun h => absurd h clear⟩
    · exact ⟨by rw [State.revive_frame]; exact hl, revive s n _ fun h => absurd h clear⟩
    · exact ⟨hl, setChan s n fun h => absurd h clear⟩
    · exact ⟨by rw [State.testSeek_frame]; exact hl, (setChan s n (c := { s.chan n with
        state := .idle, prior := none, interrupted := none }) fun h => absurd h clear).trans (testSeek _ n)⟩

theorem interlockClear (s : State) : s.Keeps b s.interlockClear := by
  unfold State.interlockClear
  split
  · exact answer ..
  · split
    · exact answer ..
    · exact (of_interlock s (k := { s.interlock with latch := false }) fun _ h => nomatch h).trans
        ((foldl_of (P := fun s => s.interlock.latch = false) (fun s n hl => returnChannel s hl n) _ _ rfl).trans
          (answer ..))

theorem holdChannel (s : State) (n : Fin 8) : s.Keeps b (s.holdChannel n) := by
  unfold State.holdChannel
  split
  · exact sendClaim s n (fun h => nomatch h)
  · exact sendClaim s n (fun h => nomatch h)
  all_goals exact refl s

theorem Channel.halt_state (c : Channel) : c.halt.state = .off ∨ c.halt.state = .halted := by
  unfold Channel.halt
  split
  case h_6 h => exact .inl h
  case h_7 h => exact .inr h
  all_goals exact .inr rfl

theorem assertInterlock (s : State) : s.Keeps b s.assertInterlock :=
  foldl holdChannel eightNumbers s
    |>.trans (of_interlock _ (k := { low := true, changeCount := 0, latch := true })
      (v := (eightNumbers.foldl State.holdChannel s).chans.map Channel.halt) fun _ _ n => by
        rw [Eight.get_map]; exact Channel.halt_state _)
    |>.trans (of_rest _ _ _ _ _ _ (eightNumbers.foldl State.holdChannel s).walker.abandonAll _ _ _)
    |>.trans (post _ _ _)

/-- The debounce moves no channel and leaves the latch (R118). -/
theorem debounce (s : State) (low : Bool) (count : Nat) :
    s.Keeps b { s with interlock := { s.interlock with low := low, changeCount := count } } :=
  of_interlock s id

theorem sample (s : State) (low : Bool) : s.Keeps b (s.sample low) := by
  unfold State.sample
  split
  · exact debounce s _ _
  · split
    · split
      · exact assertInterlock s
      · exact debounce s _ _
    · exact debounce s _ _

/-! ## The walker (chapter 4) -/

theorem exhaust (s : State) (n : Fin 8) : s.Keeps b (s.exhaust n) :=
  have idled : s.Keeps b (s.setChan n { s.chan n with
      state := if (s.chan n).state = .seeking then .idle else (s.chan n).state, exhausted := true }) :=
    setChan s n fun _ hs => by
      obtain h | h := hs
      · exact .inl (by simp [h])
      · exact .inr (by simp [h])
  idled.trans ((of_rest ..).trans (post _ _ _))

theorem walkOn (s : State) (k : Seek) : s.Keeps b (s.walkOn k) := by
  unfold State.walkOn
  dsimp only
  split
  · exact of_rest ..
  · split
    · exact of_rest ..
    · exact exhaust s _

theorem walkerChoice (s : State) : s.Keeps b s.walkerChoice := by
  unfold State.walkerChoice
  split
  · dsimp only
    split
    · exact (of_rest s ..).trans (exhaust _ _)
    · exact of_rest ..
  · exact refl s

theorem walkerExamine (s : State) : s.Keeps b s.walkerExamine := by
  unfold State.walkerExamine
  split
  · exact refl s
  · split
    · exact refl s
    · dsimp only
      split
      · exact of_rest ..
      · exact walkOn s _

theorem claimRequest (s : State) (hb : b = s.interlock.latch) : s.Keeps b s.claimRequest := by
  unfold State.claimRequest
  split
  · exact refl s
  · split
    · exact refl s
    · split
      · exact walkOn s _
      · split
        · exact walkOn s _
        case h_2 h =>
          have hl := State.latch_clear_of_claimReason h
          exact (grant s (hb.trans hl) hl _ _ _).trans (of_rest ..)

/-! ## The links and the report engine (chapters 5 and 6) -/

theorem setLink (s : State) (n : Fin 8) (p : Policy) (strict : Bool) (f : LinkFlags) :
    s.Keeps b (s.setLink n p strict f) :=
  (setLinkRx s n (l := { s.link n with policy := p, strict := strict, enables := f }) id).trans (answer ..)

theorem restartLink (s : State) (n : Fin 8) : s.Keeps b (s.restartLink n) :=
  (setLinkRx s n (l := { s.link n with
    rx := if (s.link n).rx = .fault then .hunt else (s.link n).rx, queue := [] })
      fun h => ⟨Nat.zero_le _, h.2⟩).trans (answer ..)

theorem readLink (s : State) (n : Fin 8) : s.Keeps b (s.readLink n) :=
  (setLinkRx s n (l := { s.link n with flags := LinkFlags.none, errors := 0 }) fun h => ⟨h.1, Nat.zero_le _⟩).trans
    (answer ..)

theorem syncWord (s : State) (n : Fin 8) (w : BitVec 16) : s.Keeps b (s.syncWord n w) := by
  have begun : s.Keeps b (s.setLinkRx n (s.link n).beginFrame) := setLinkRx s n id
  unfold State.syncWord
  split
  · exact refl s
  · split
    · exact begun
    · exact begun.trans (linkError _ n _)
    · exact refl s

theorem headerBytes (s : State) (n : Fin 8) (l : List Byte) : s.Keeps b (s.headerBytes n l) := by
  unfold State.headerBytes
  dsimp only
  split
  · exact refl s
  · split
    · unfold State.checkHeader
      dsimp only
      split
      · exact setLinkRx s n id
      · exact (setLinkRx s n (l := { s.link n with
          rx := (s.link n).policy.afterDamage, header := none, gathered := [] }) id).trans (linkError _ n _)
    · split
      · exact setLinkRx s n id
      · exact refl s

theorem acceptFrame (s : State) (n : Fin 8) (source : Nat) (kind : ReportKind) (p : List Byte) :
    s.Keeps b (s.acceptFrame n source kind p) := by
  unfold State.acceptFrame
  dsimp only
  split
  case isTrue h =>
    refine setLinkRx s n fun hb => ⟨?_, hb.2⟩
    rw [List.length_append]
    exact h
  case isFalse =>
    exact (setLinkRx s n (l := { s.link n with lastKind := some kind, lastSource := some source }) id).trans
      ((linkError _ n _).trans (setChan_state _ n rfl))

theorem judgeFrame (s : State) (n : Fin 8) (h : FrameHeader) (p : List Byte) (crc : Nat) :
    s.Keeps b (s.judgeFrame n h p crc) := by
  unfold State.judgeFrame
  split
  · exact linkError s n _
  · split
    · exact linkError s n _
    · split
      · exact linkError s n _
      · unfold State.checkSource
        split
        · exact acceptFrame ..
        · dsimp only
          split
          · exact linkError s n _
          · exact (linkError s n _).trans (acceptFrame ..)

theorem frameBytes (s : State) (n : Fin 8) (l : List Byte) : s.Keeps b (s.frameBytes n l) := by
  unfold State.frameBytes
  dsimp only
  split
  · split
    · exact setLinkRx s n id
    · split
      · exact (setLinkRx s n (l := { s.link n with rx := .hunt, header := none, gathered := [] }) id).trans
          (judgeFrame ..)
      · exact refl s
  · exact refl s

theorem messageSent (s : State) (n : Fin 8) :
    s.Keeps b { s with txs := s.txs.set n (s.txs.get n).sent } :=
  of_txs s
    (fun _ j m _ hc => by
      rw [Eight.get_set] at hc
      split at hc
      case isTrue h => subst h; exact Transmitter.carries_sent hc
      case isFalse => exact hc)
    (fun j hj => by
      rw [Eight.get_set]
      split
      case isTrue h => subst h; exact Transmitter.sent_waiting hj
      case isFalse => exact hj)

theorem setList (s : State) (i : Nat) (l : List Nat) : s.Keeps b (s.setList i l) := changeTube s i _

theorem truncate (s : State) (i : Nat) : s.Keeps b (s.truncate i) := changeTube s i _

theorem create (s : State) (l : List Nat) (m : Measurement) : s.Keeps b (s.create l m) := by
  unfold State.create
  split
  · exact refl s
  case h_2 n rest h =>
    exact (of_store s (fun hc => Store.conserved_taken hc h (Option.some_ne_none _)) (Store.setSlot_canonical _ _ _)).trans
      ((setList _ _ _).trans ((judgePool _).trans (watchTube _ _)))

theorem merge (s : State) (t : Tube) (m : Measurement) {n : Nat} {e : Entry} (he : s.store.entry n = some e) :
    s.Keeps b (s.merge t m n e) := by
  have hn : s.store.entry n ≠ none := by rw [he]; exact nofun
  unfold State.merge
  dsimp only
  split
  case isFalse => exact setEntry s hn _
  case isTrue =>
    generalize he2 : ({ e with sightings := min (e.sightings + 1) 15, measured := m.measured } : Entry) = e2
    generalize hs1 : ({ s with store := s.store.setEntry n e2 } : State) = s1
    have written : s.Keeps b s1 := hs1 ▸ setEntry s hn e2
    have hn1 : s1.store.entry n ≠ none := by
      rw [← hs1]; simp [Store.entry_setEntry]
    generalize hs2 : (if e.measured.axial = m.measured.axial then s1 else
      s1.setList m.tube (insertEntry (s.store.setEntry n e2) n e2 (t.entries.erase n))) = s2
    have moved : s1.Keeps b s2 ∧ s2.store = s1.store := by
      rw [← hs2]
      split
      · exact ⟨refl s1, rfl⟩
      · exact ⟨setList .., State.setList_store ..⟩
    split
    · exact written.trans (moved.1.trans (changeStatus s2 (moved.2 ▸ hn1) _))
    · exact written.trans moved.1

theorem listFull (s : State) (t : Tube) (m : Measurement) : s.Keeps b (s.listFull t m) := by
  unfold State.listFull
  split
  · exact truncate s _
  · split
    · exact setList s _ _ |>.trans (retire _ _) |>.trans (watchTube _ _) |>.trans (create _ _ m)
        |>.trans (truncate _ _)
    · exact truncate s _

theorem fileMeasurement (s : State) (m : Measurement) : s.Keeps b (s.fileMeasurement m) := by
  unfold State.fileMeasurement
  split
  · exact refl s
  · split
    case h_1 h => exact merge s _ m (matchEntry_entry h)
    case h_2 =>
      split
      · exact listFull s _ m
      · split
        · exact (truncate s _).trans (post _ _ _)
        · exact create s _ m

theorem reloadFor (s : State) (n : Fin 8) (k : ReportKind) : s.Keeps b (s.reloadFor n k) := reloadTimer s n _

theorem enterTube (s : State) (n : Fin 8) : s.Keeps b (s.setChan n (s.chan n).enterTube) :=
  setChan s n fun _ hs => by
    unfold Channel.enterTube
    split
    case h_1 h => exact absurd hs (by rw [h]; decide)
    all_goals exact hs

theorem takeIndication (s : State) (n : Fin 8) (k : Claim) (x : Indication) (extent : TakeExtent) :
    s.Keeps b (s.takeIndication n k x extent) := by
  refine (reloadFor s n .indication).trans ?_
  unfold State.takeIndication
  dsimp only
  split
  · exact refl _
  · exact setChan_state _ n rfl
  case h_3 m _ =>
    split
    · exact fileMeasurement ..
    · exact (setChan_state (s.reloadFor n .indication) n
        (c := { (s.reloadFor n .indication).chan n with filing := some m }) rfl).trans (of_rest ..)

theorem passOutcome (s : State) (i : Nat) (o : PassOutcome) : s.Keeps b (s.passOutcome i o) := by
  unfold State.passOutcome
  dsimp only
  split
  · exact (changeTube s i _).trans (evaluate _ i)
  · exact changeTube s i _

theorem passEnd (s : State) (n : Fin 8) (k : Claim) (o : PassOutcome) : s.Keeps b (s.passEnd n k o) :=
  (passOutcome s k.tube o).trans ((endPass _ n).trans (testSeek _ n))

theorem takeAccepted (s : State) (n : Fin 8) (r : Report) (extent : TakeExtent) :
    s.Keeps b (s.takeAccepted n r extent) := by
  unfold State.takeAccepted
  split
  · exact reloadFor s n _
  · exact (enterTube s n).trans ((changeTube _ _ _).trans (reloadFor _ n _))
  · unfold State.takeProgress
    dsimp only
    split
    · exact refl s
    · exact (setChan_state s n (c := { s.chan n with lastCount := some r.encoderCount }) rfl).trans (reloadFor _ n _)
  · exact takeIndication ..
  case h_5 k _ _ =>
    exact (setChan_state s n (c := { s.chan n with claim := some { k with farEnd := true } }) rfl).trans
      (reloadFor _ n _)
  · exact passEnd ..
  · exact passEnd ..
  · exact refl s

theorem handleReport (s : State) (link : Fin 8) (r : Report) (extent : TakeExtent) :
    s.Keeps b (s.handleReport link r extent) := by
  unfold State.handleReport
  split
  · exact takeAccepted ..
  · exact linkError ..

theorem goOn (s : State) (h : Hand) (extent : TakeExtent) : s.Keeps b (s.goOn h extent) := by
  have dropped : s.Keeps b { s with hand := none } := of_rest ..
  refine dropped.trans ?_
  unfold State.goOn
  dsimp only
  split
  · exact handleReport ..
  · unfold State.handOver
    dsimp only
    split
    · exact refl _
    case h_2 n _ m _ =>
      exact (setChan_state { s with hand := none } n (c := { s.chan n with filing := none }) rfl).trans
        (fileMeasurement ..)

theorem reportTake (s : State) (extent : TakeExtent) : s.Keeps b (s.reportTake extent) := by
  unfold State.reportTake
  split
  · exact goOn ..
  · split
    · exact refl s
    case h_2 n _ =>
      split
      · exact refl s
      case h_2 r rest hq =>
        have taken : s.Keeps b { s.setLinkRx n { s.link n with queue := rest } with engine := n } :=
          (setLinkRx s n (l := { s.link n with queue := rest }) fun h =>
            ⟨(Nat.le_succ _).trans (by simpa [hq] using h.1), h.2⟩).trans (of_rest ..)
        dsimp only
        split
        · exact taken.trans (handleReport ..)
        · exact taken.trans (of_rest ..)

theorem dataGapMark (s : State) (n : Fin 8) : s.Keeps b (s.dataGapMark n) := by
  unfold State.dataGapMark
  dsimp only
  split
  · exact refl s
  · exact setChan_state s n rfl

theorem overtravelMark (s : State) (n : Fin 8) : s.Keeps b (s.overtravelMark n) := by
  unfold State.overtravelMark
  dsimp only
  split
  · exact refl s
  · exact setChan_state s n rfl

/-! ## Dual analysis and resolution (chapter 9) -/

theorem applyCall (s : State) {n : Nat} {e : Entry} (he : s.store.entry n = some e) (e' : Entry) :
    s.Keeps b (s.applyCall n e e') := by
  have hn : s.store.entry n ≠ none := by rw [he]; exact nofun
  unfold State.applyCall
  split
  · exact setEntry s hn e'
  · split
    · exact (post s .dispute e.tube).trans (changeStatus (s.post .dispute e.tube) hn e')
    · exact changeStatus s hn e'

theorem submitCall (s : State) (role : Role) (ref : EntryRef) (c : Call) : s.Keeps b (s.submitCall role ref c) := by
  unfold State.submitCall
  split
  · exact answer ..
  case h_2 he =>
    split
    · exact answer ..
    · split
      · exact answer ..
      · split
        · exact answer ..
        · exact (applyCall s (Store.resolve_entry he) _).trans (answer ..)

theorem reviewDone (s : State) (role : Role) (name : TubeName) (a : Bool) : s.Keeps b (s.reviewDone role name a) := by
  unfold State.reviewDone
  split
  · exact answer ..
  · split
    · exact answer ..
    · split
      · exact answer ..
      · split
        · exact answer ..
        · exact (changeTube s _ _).trans ((evaluate _ _).trans (answer ..))

theorem takeEntry (s : State) (k : Fin 4) (ref : EntryRef) : s.Keeps b (s.takeEntry k ref) := by
  unfold State.takeEntry
  split
  · exact answer ..
  case h_2 e he =>
    have hn : s.store.entry ref.number ≠ none := by rw [Store.resolve_entry he]; exact nofun
    have held : s.Keeps b (s.hold k ref e) := (of_rest ..).trans (changeStatus
      { s with seats := (s.seats.set k
          { held := some ref, expiry := some (s.clock + holdMillis s.map.params.holdLimit) }) } hn _)
    split
    · exact answer ..
    · split
      · exact answer ..
      · split
        · exact answer ..
        · split
          · exact answer ..
          · exact held.trans (answer ..)

/-- The end of a hold: the seat is freed and its entry written (R169 to R171). -/
theorem endHold (s : State) {k : Fin 4} {r : EntryRef} {e : Entry} (h : s.heldEntry k = some (r, e)) (e' : Entry) :
    s.Keeps b ((s.freeSeat k).changeStatus r.number e') :=
  (of_rest s ..).trans (changeStatus (s.freeSeat k) (by rw [State.freeSeat, State.heldEntry_entry h]; exact nofun) e')

theorem resolveEntry (s : State) (k : Fin 4) (c : Call) : s.Keeps b (s.resolveEntry k c) := by
  unfold State.resolveEntry
  split
  · exact answer ..
  case h_2 h => exact (endHold s h _).trans (answer ..)

theorem releaseEntry (s : State) (k : Fin 4) : s.Keeps b (s.releaseEntry k) := by
  unfold State.releaseEntry
  split
  · exact answer ..
  case h_2 h => exact (endHold s h _).trans (answer ..)

theorem holdExpiry (s : State) (k : Fin 4) : s.Keeps b (s.holdExpiry k) := by
  unfold State.holdExpiry
  split
  · exact refl s
  case h_2 due _ =>
    have timed : s.Keeps b { s with clock := max s.clock due } := of_rest ..
    refine timed.trans (.trans ?_ (post _ _ _))
    unfold State.returnHeld
    split
    · exact of_rest ..
    case h_2 h => exact endHold _ h _

/-! ## The notices and the port (chapter 10) -/

theorem setNoticeLevel (s : State) (c : NoticeClass) (v : Nat) : s.Keeps b (s.setNoticeLevel c v) :=
  (of_notices s fun h => NoticeUnit.sound_setLevel h c v).trans (answer ..)

theorem setFloor (s : State) (f : Nat) : s.Keeps b (s.setFloor f) :=
  (of_notices s (u := { s.notices with floor := f }) id).trans (answer ..)

theorem takeNotice (s : State) : s.Keeps b s.takeNotice :=
  (of_notices s fun h => NoticeUnit.sound_remove h _).trans (answer ..)

theorem readTransfer (s : State) (k : Nat) : s.Keeps b (s.readTransfer k) := by
  unfold State.readTransfer
  split
  · exact refl s
  · split
    · dsimp only
      split
      · exact of_rest ..
      · exact of_rest ..
    · exact refl s
    · exact of_rest ..

theorem overrunEvent (s : State) : s.Keeps b s.overrunEvent := by
  unfold State.overrunEvent
  split
  · exact overrun s
  · exact overrun s
  · exact refl s
  · exact refl s

theorem finish (s : State) (w : Work) : s.Keeps b (s.finish w) := by
  unfold State.finish
  split
  · split
    · exact complete ..
    · exact refl s
  · split
    · exact refl s
    · exact (activate s).trans (complete ..)
  · split
    · exact refl s
    · exact (of_mapRest s _ _ .layout _ _ _).trans (complete ..)
  · split
    · exact refl s
    · exact complete ..
  · split
    · exact complete ..
    · exact refl s
  · exact complete ..

theorem commandComplete (s : State) : s.Keeps b s.commandComplete := by
  unfold State.commandComplete
  split
  · exact finish ..
  · exact refl s

theorem readTube (s : State) (name : TubeName) : s.Keeps b (s.readTube name) := by
  unfold State.readTube
  split
  · exact start ..
  · exact start ..

theorem findVisit (s : State) : s.Keeps b s.findVisit := by
  unfold State.findVisit
  split
  · split
    · exact refl s
    · exact begin ..
  · exact refl s

theorem readEntry (s : State) (ref : EntryRef) : s.Keeps b (s.readEntry ref) := by
  unfold State.readEntry
  split
  · exact answer ..
  · exact answer ..

/-! ## The resets (00_scope.md section 4) -/

theorem powerOn (s : State) : s.Keeps b s.powerOn where
  pending := rfl
  notices _ := ⟨Nat.zero_le _, List.nodup_nil, fun _ h => nomatch h⟩
  interlocked _ h := nomatch h
  assigns _ n m _ h := by
    rw [show s.powerOn.txs = Eight.fill Transmitter.quiet from rfl, Eight.get_fill] at h
    exact h.elim nofun nofun
  census _ := rfl
  pool _ := Store.conserved_powerOn
  canonical _ := ⟨rfl, rfl⟩
  bounded _ n := by
    rw [State.link, show s.powerOn.links = Eight.fill Link.powerOn from rfl,
      show s.powerOn.txs = Eight.fill Transmitter.quiet from rfl, Eight.get_fill, Eight.get_fill]
    exact ⟨Nat.zero_le _, Nat.zero_le _, Nat.zero_le _⟩

theorem resetBlocks (s : State) : s.Keeps b s.resetBlocks :=
  of_interlock s (k := Interlock.clear) (v := s.chans.map Channel.afterReset) (fun _ h => nomatch h)
    |>.trans (of_notices _ fun _ => NoticeUnit.sound_emptied s.notices)
    |>.trans (of_links _ (v := s.links.map Link.restart) fun n _ => by rw [Eight.get_map]; exact Link.bounded_restart _)
    |>.trans (of_txs _ (v := Eight.fill Transmitter.quiet)
      (fun _ n m _ h => by rw [Eight.get_fill] at h; exact h.elim nofun nofun)
      (fun n _ => by rw [Eight.get_fill]; exact Nat.zero_le _))
    |>.trans (of_rest ..)

theorem releaseTube (s : State) (c : Channel) : s.Keeps b (s.releaseTube c) := by
  unfold State.releaseTube
  split
  · exact refl s
  · exact changeTube s _ _

theorem returnIfResolving (s : State) (n : Nat) : s.Keeps b (s.returnIfResolving n) := by
  unfold State.returnIfResolving
  split
  · exact refl s
  case h_2 he =>
    split
    · exact changeStatus s (by rw [he]; exact nofun) _
    · exact refl s

theorem resetPart (s : State) : s.Keeps b s.resetPart := by
  have armed : ∀ t : State, t.Keeps b (if t.map.phase = .active then t.armCompletion else t) := fun t => by
    split
    · exact armCompletion t
    · exact refl t
  have warned : ∀ t : State, t.Keeps b { t with store := { t.store with warnArmed := true } } := fun t =>
    of_store t id id
  exact resetBlocks s |>.trans (foldl releaseTube s.chans.toList _) |>.trans (foldl returnIfResolving _ _)
    |>.trans (armed _) |>.trans (warned _) |>.trans (judgePool _)

theorem sendCancel (s : State) (n : Fin 8) : s.Keeps b (s.sendCancel n) := by
  unfold State.sendCancel
  split
  · exact refl s
  · exact send s n (k := .cancel) (fun h => nomatch h) _

theorem resetEnd (s : State) : s.Keeps b s.resetEnd := (foldl sendCancel eightNumbers s).trans (of_rest ..)

end State.Keeps

end Sys2Proof.Machine
end

section
/-! The dispatch: every command answers a next state that keeps every promise, and the promises of a step (O2, O55 to
O60). -/

namespace Sys2Proof.Machine

/-- The command answers a next state that keeps the promises. -/
def Instr.KeepsPromises (i : Instr) (s : State) : Prop := ∃ t, exec i s = .next t ∧ s.Keeps s.interlock.latch t

open State.Keeps in
/-- Every request command, by its meaning behind the port's checks. -/
theorem exec_request_keeps {i : Instr} (hi : i.request.isSome) (s : State) : Instr.KeepsPromises i s := by
  cases i with
  | defineTubes => exact ⟨_, rfl, takeRequest (defineTubes ..)⟩
  | clearLayout => exact ⟨_, rfl, takeRequest ((of_mapRest s _ _ _ _ _ (Four.fill none)).trans (start ..))⟩
  | setLandmarks _ l => exact ⟨_, rfl, takeRequest ((of_mapRest s _ (some l) _ _ _ _).trans (answer ..))⟩
  | setCampaign _ f => exact ⟨_, rfl, takeRequest ((of_mapRest s (f.apply s.map.params) _ _ _ _ _).trans (answer ..))⟩
  | loadCurve => exact ⟨_, rfl, takeRequest (loadCurve ..)⟩
  | openCampaign => exact ⟨_, rfl, takeRequest (openCampaign s)⟩
  | closeCampaign => exact ⟨_, rfl, takeRequest (closeCampaign s)⟩
  | newCampaign => exact ⟨_, rfl, takeRequest (start ..)⟩
  | prepareLayout => exact ⟨_, rfl, takeRequest (start ..)⟩
  | planRegion => exact ⟨_, rfl, takeRequest (start ..)⟩
  | configureChannel => exact ⟨_, rfl, takeRequest ((configure ..).trans (answer ..))⟩
  | setChannelCal => exact ⟨_, rfl, takeRequest (setCal ..)⟩
  | setKeepout => exact ⟨_, rfl, takeRequest (of_rest ..)⟩
  | setClearance => exact ⟨_, rfl, takeRequest (of_rest ..)⟩
  | startChannel => exact ⟨_, rfl, takeRequest (startChannel ..)⟩
  | stopChannel => exact ⟨_, rfl, takeRequest (stopChannel ..)⟩
  | abandon => exact ⟨_, rfl, takeRequest (abandonPass ..)⟩
  | resume => exact ⟨_, rfl, takeRequest (resume ..)⟩
  | channelReset => exact ⟨_, rfl, takeRequest (channelReset ..)⟩
  | assignTube => exact ⟨_, rfl, takeRequest (assignTube s rfl ..)⟩
  | setLink => exact ⟨_, rfl, takeRequest (setLink ..)⟩
  | restartLink => exact ⟨_, rfl, takeRequest (restartLink ..)⟩
  | interlockClear => exact ⟨_, rfl, takeRequest (interlockClear s)⟩
  | plugTube => exact ⟨_, rfl, takeRequest (plugTube ..)⟩
  | unblockTube => exact ⟨_, rfl, takeRequest (unblockTube ..)⟩
  | submitCall => exact ⟨_, rfl, takeRequest (submitCall ..)⟩
  | reviewDone => exact ⟨_, rfl, takeRequest (reviewDone ..)⟩
  | takeEntry => exact ⟨_, rfl, takeRequest (takeEntry ..)⟩
  | resolveEntry => exact ⟨_, rfl, takeRequest (resolveEntry ..)⟩
  | releaseEntry => exact ⟨_, rfl, takeRequest (releaseEntry ..)⟩
  | requestRetest => exact ⟨_, rfl, takeRequest (requestRetest ..)⟩
  | readTube => exact ⟨_, rfl, takeRequest (readTube ..)⟩
  | findTube => exact ⟨_, rfl, takeRequest (start ..)⟩
  | readEntry => exact ⟨_, rfl, takeRequest (readEntry ..)⟩
  | readCensus => exact ⟨_, rfl, takeRequest (answer ..)⟩
  | readChannel => exact ⟨_, rfl, takeRequest (answer ..)⟩
  | readLink => exact ⟨_, rfl, takeRequest (readLink ..)⟩
  | readStatus => exact ⟨_, rfl, takeRequest (answer ..)⟩
  | setNoticeLevel => exact ⟨_, rfl, takeRequest (setNoticeLevel ..)⟩
  | setFloor => exact ⟨_, rfl, takeRequest (setFloor ..)⟩
  | takeNotice => exact ⟨_, rfl, takeRequest (takeNotice s)⟩
  | setWatch => exact ⟨_, rfl, takeRequest (setWatch ..)⟩
  | _ => exact nomatch hi

/-- A frame read off its bytes is carried out as its command's row, or, where no request row spells it, not at all. -/
theorem carryOut_request {i : Instr} (hi : i.request.isSome) (s : State) : carryOut i s = exec i s := by
  cases i <;> cases hi <;> rfl

theorem carryOut_event {i : Instr} (hi : i.request = none) (s : State) : carryOut i s = .next s := by
  cases i <;> cases hi <;> rfl

theorem carryOut_keeps (i : Instr) (s : State) : ∃ t, carryOut i s = .next t ∧ s.Keeps s.interlock.latch t := by
  cases hi : i.request with
  | none => exact ⟨s, carryOut_event hi s, .refl s⟩
  | some r =>
    have h : i.request.isSome := by rw [hi]; rfl
    rw [carryOut_request h]
    exact exec_request_keeps h s

theorem State.judgeTransfer_keeps (s : State) (l : List Byte) :
    ∃ t, s.judgeTransfer l = .next t ∧ s.Keeps s.interlock.latch t := by
  unfold State.judgeTransfer
  dsimp only
  split
  · exact ⟨_, rfl, .of_rest ..⟩
  · split
    · exact ⟨_, rfl, .of_rest ..⟩
    · unfold State.takeFrame
      split
      · exact ⟨_, rfl, .takeRequest (.refl s)⟩
      · exact carryOut_keeps _ s

theorem exec_requestTransferRefused_keeps (x : Transfer) (s : State) :
    Instr.KeepsPromises (.requestTransferRefused x) s := by
  show ∃ t, execRequestTransferRefused x s = .next t ∧ _
  have overrun : ∃ t, (.next (if x.bytes.headD 0#8 = 0#8 then s else s.overrun) : Host.Outcome State Fault Refusal) =
      .next t ∧ s.Keeps s.interlock.latch t := by
    refine ⟨_, rfl, ?_⟩
    split
    · exact .refl s
    · exact .overrun s
  unfold execRequestTransferRefused
  split
  · exact ⟨s, rfl, .refl s⟩
  · unfold State.transferBytes
    split
    · split
      · exact ⟨s, rfl, .refl s⟩
      · split
        · exact s.judgeTransfer_keeps _
        · exact ⟨_, rfl, .of_rest ..⟩
    · split
      · exact s.judgeTransfer_keeps _
      · exact ⟨_, rfl, .of_rest ..⟩
    · exact overrun
    · exact overrun

open State.Keeps in
/-- Every command answers a next state and keeps every promise. -/
theorem exec_keeps (i : Instr) (s : State) : Instr.KeepsPromises i s := by
  have ite {c : Prop} [Decidable c] {t : State} (h : s.Keeps s.interlock.latch t) :
      s.Keeps s.interlock.latch (if c then t else s) := by
    split
    · exact h
    · exact .refl s
  cases i with
  | powerOn => exact ⟨_, rfl, powerOn s⟩
  | reset =>
    refine ⟨_, rfl, ?_⟩
    split
    · exact .refl s
    · exact resetPart s
  | resetEnd => exact ⟨_, rfl, ite (resetEnd s)⟩
  | requestTransferRefused x => exact exec_requestTransferRefused_keeps x s
  | readTransfer => exact ⟨_, rfl, whenRunning (readTransfer ..)⟩
  | overrun => exact ⟨_, rfl, whenRunning (overrunEvent s)⟩
  | commandComplete => exact ⟨_, rfl, whenRunning (commandComplete s)⟩
  | clearLayoutTube => exact ⟨_, rfl, whenRunning (clearLayoutTube s)⟩
  | rolloverTube => exact ⟨_, rfl, whenRunning (rolloverTube s)⟩
  | planRegionTube => exact ⟨_, rfl, whenRunning (planRegionTube s)⟩
  | findTubeVisit => exact ⟨_, rfl, whenRunning (findVisit s)⟩
  | headerCheck => exact ⟨_, rfl, whenRunning (headerBytes ..)⟩
  | frameComplete => exact ⟨_, rfl, whenRunning (frameBytes ..)⟩
  | dataGapMark => exact ⟨_, rfl, whenRunning (dataGapMark ..)⟩
  | reportTake => exact ⟨_, rfl, whenRunning (reportTake ..)⟩
  | overtravelMark => exact ⟨_, rfl, whenRunning (overtravelMark ..)⟩
  | messageSent => exact ⟨_, rfl, whenRunning (messageSent ..)⟩
  | stallExpiry => exact ⟨_, rfl, whenRunning (stallExpiry ..)⟩
  | holdTimerExpiry => exact ⟨_, rfl, whenRunning (holdExpiry ..)⟩
  | interlockAssertion => exact ⟨_, rfl, whenRunning (ite (assertInterlock s))⟩
  | wbholdRise => exact ⟨_, rfl, whenRunning (ite (debounce s false 0))⟩
  | walkerChoice => exact ⟨_, rfl, whenRunning (walkerChoice s)⟩
  | walkerExamine => exact ⟨_, rfl, whenRunning (walkerExamine s)⟩
  | claimRequest => exact ⟨_, rfl, whenRunning (claimRequest s rfl)⟩
  | syncWordFound => exact ⟨_, rfl, whenRunning (syncWord ..)⟩
  | stallTimerTick => exact ⟨_, rfl, whenRunning (stallTick ..)⟩
  | wbholdSample => exact ⟨_, rfl, whenRunning (sample ..)⟩
  | _ => exact exec_request_keeps rfl s

/-- A step keeps every promise; the queue alone is shorter by its front, and no promise speaks of it. -/
theorem step_keeps {s t : State} (h : step s = .next t) : { s with pending := t.pending }.Keeps s.interlock.latch t := by
  unfold step at h
  split at h
  case h_1 =>
    cases h
    exact .of_rest ..
  case h_2 c rest _ =>
    obtain ⟨u, hu, hk⟩ := exec_keeps c { s with pending := rest }
    rw [hu] at h
    cases h
    rw [hk.pending]
    exact hk

/-! ## The part while RESET# is low -/

theorem State.takeRequest_held {s : State} (h : s.held = true) (c : Command) (rq : Requester) (r : Bool)
    (act : State → State) : s.takeRequest c rq r act = s := if_pos h

theorem State.whenRunning_held {s : State} (h : s.held = true) (act : State → State) : s.whenRunning act = s := if_pos h

theorem exec_request_held {s : State} (h : s.held = true) {c : Instr} (hr : c.request.isSome) :
    exec c s = .next s := by
  cases c <;> cases hr <;> exact congrArg Host.Outcome.next (State.takeRequest_held h ..)

theorem exec_event_held {s : State} (h : s.held = true) {c : Instr} (hr : c.request = none) (hp : c ≠ .powerOn)
    (he : c ≠ .resetEnd) : exec c s = .next s := by
  cases c <;> cases hr
  case powerOn => exact absurd rfl hp
  case resetEnd => exact absurd rfl he
  case reset => exact congrArg Host.Outcome.next (if_pos h)
  case requestTransferRefused => exact if_pos h
  all_goals exact congrArg Host.Outcome.next (State.whenRunning_held h _)

theorem exec_held {s : State} (h : s.held = true) {c : Instr} (hp : c ≠ .powerOn) (he : c ≠ .resetEnd) :
    exec c s = .next s := by
  cases hr : c.request with
  | some r => exact exec_request_held h (by rw [hr]; rfl)
  | none => exact exec_event_held h hr hp he

/-- Settles O2: every meaning keeps the queue, and while RESET# is low the port's and the events' guards hold. -/
theorem everyCommandAnswers : Obligations.EveryCommandAnswers := by
  unfold Obligations.EveryCommandAnswers
  refine ⟨fun c s => ?_, fun c s h hp he => exec_held h hp he⟩
  obtain ⟨t, ht, hk⟩ := exec_keeps c s
  exact ⟨t, ht, hk.pending⟩

/-- Settles O55. -/
theorem stepKeepsNotices : Obligations.StepKeepsNotices := by
  unfold Obligations.StepKeepsNotices
  exact fun s t hs h => (step_keeps h).notices hs

/-- Settles O56: the channels' states by the promise, the messages by what enters the transmitters. -/
theorem stepKeepsInterlock : Obligations.StepKeepsInterlock := by
  unfold Obligations.StepKeepsInterlock
  exact fun s t h => ⟨(step_keeps h).interlocked, (step_keeps h).assigns⟩

/-- Settles O57: the kept census by the step, the census counted afresh by its counts. -/
theorem stepKeepsCensus : Obligations.StepKeepsCensus := by
  unfold Obligations.StepKeepsCensus
  refine ⟨fun s t hs h => (step_keeps h).census hs, fun l => ⟨fun x => ?_, ?_, ?_, censusOf_total l⟩⟩
  · rw [censusOf_count, List.countP_eq_length_filter]
  · rw [censusOf_planned, List.countP_eq_length_filter]
  · rw [censusOf_plannedOpen, List.countP_eq_length_filter]; rfl

/-- Settles O58. -/
theorem stepKeepsPool : Obligations.StepKeepsPool := by
  unfold Obligations.StepKeepsPool
  exact fun s t hs h => (step_keeps h).pool hs

/-- Settles O59. -/
theorem stepKeepsForms : Obligations.StepKeepsForms := by
  unfold Obligations.StepKeepsForms
  exact fun s t h => ⟨(step_keeps h).canonical, (step_keeps h).bounded⟩

/-- Settles O60: State.reset differs from the part at POWER_ON in the reset line alone, so POWER_ON's promises are its
own; and the free list's count. -/
theorem resetMeetsPromises : Obligations.ResetMeetsPromises := by
  unfold Obligations.ResetMeetsPromises
  have bounded : State.reset.powerOn.bounded := fun n => by
    rw [State.link, show State.reset.powerOn.links = Eight.fill Link.powerOn from rfl,
      show State.reset.powerOn.txs = Eight.fill Transmitter.quiet from rfl, Eight.get_fill, Eight.get_fill]
    exact ⟨Nat.zero_le _, Nat.zero_le _, Nat.zero_le _⟩
  exact ⟨⟨Nat.zero_le _, List.nodup_nil, fun _ h => nomatch h⟩, nofun, rfl, Store.conserved_powerOn, ⟨rfl, rfl⟩, bounded,
    fun f _ => f.count_eq.symm, rfl⟩

/-- Settles O1: the two cases of the queue. -/
theorem stepRunsFront : Obligations.StepRunsFront := by
  unfold Obligations.StepRunsFront
  refine ⟨fun c rest s h => ?_, fun s h => ?_⟩
  · simp only [step, h]
  · simp only [step, h]

end Sys2Proof.Machine
end

section
/-! The port's checks by the request rows (R181), POWER_ON's values (R20, R63, R158), the overrun (R184), and the ranges
of check 5. -/

namespace Sys2Proof.Machine

/-! ## A request row at the port -/

/-- Every request row is its command behind the port's checks. -/
theorem exec_request {c : Instr} {cmd : Command} {rq : Requester} (h : c.request = some (cmd, rq)) (s : State) :
    ∃ r act, exec c s = .next (s.takeRequest cmd rq r act) := by
  cases c <;> cases h <;> exact ⟨_, _, rfl⟩

theorem State.open_iff {s : State} :
    s.open = true ↔ s.held = false ∧ (s.port.mode = .idle ∨ s.port.mode = .receiving) := by
  simp only [State.open, Bool.and_eq_true, Bool.not_eq_true', decide_eq_true_eq]

theorem State.takeRequest_open {s : State} (h : s.open = true) (c : Command) (rq : Requester) (r : Bool)
    (act : State → State) :
    (∀ st, portRefusal c rq.role s.map.phase r = some st → s.takeRequest c rq r act = s.answer c st []) ∧
    (portRefusal c rq.role s.map.phase r = none → s.takeRequest c rq r act = act s) := by
  obtain ⟨hheld, hmode⟩ := State.open_iff.mp h
  have hne : ¬ s.held = true := by rw [hheld]; decide
  unfold State.takeRequest
  rw [if_neg hne]
  obtain hm | hm := hmode
  · rw [hm]; exact ⟨fun st hst => by simp only [hst], fun hn => by simp only [hn]⟩
  · rw [hm]; exact ⟨fun st hst => by simp only [hst], fun hn => by simp only [hn]⟩

theorem State.takeRequest_busy {s : State} (hheld : s.held = false)
    (h : s.port.mode = .executing ∨ s.port.mode = .responding) (c : Command) (rq : Requester) (r : Bool)
    (act : State → State) : s.takeRequest c rq r act = s.overrun := by
  unfold State.takeRequest
  rw [if_neg (by rw [hheld]; decide)]
  obtain hm | hm := h
  · rw [hm]
  · rw [hm]

section Accepted

variable {s : State} {i : Instr} {cmd : Command} {rq : Requester} {r : Bool} {act : State → State}

/-- A request that the port takes, with its fields in range, has its command's effect. -/
theorem exec_accepted (h : s.takes cmd rq = true) (hi : exec i s = .next (s.takeRequest cmd rq r act)) (hr : r = true) :
    exec i s = .next (act s) := by
  rw [hi, State.takeRequest_takes h, if_pos hr]

/-- A request that the port takes, with a field out of range, is answered RANGE (check 5 of R181). -/
theorem exec_out_of_range (h : s.takes cmd rq = true) (hi : exec i s = .next (s.takeRequest cmd rq r act))
    (hr : r = false) : exec i s = .next (s.answer cmd .range []) := by
  rw [hi, State.takeRequest_takes h, if_neg (by rw [hr]; decide)]

end Accepted

/-! ## POWER_ON (R20, R63, R158) -/

/-- The places of the pool after a creation: the head of the free list, its issue number raised (R151). -/
theorem State.create_slot {s : State} {n : Nat} {rest : FreeList} (h : s.store.free.take = some (n, rest)) (l : List Nat)
    (m : Measurement) (k : Nat) :
    (s.create l m).store.slot k =
      if n = k then { issue := ((s.store.slot n).issue + 1) % 256, content := some (newEntry m) } else s.store.slot k := by
  unfold State.create
  rw [h]
  dsimp only
  rw [State.watchTube_frame, State.judgePool_frame]
  show (State.setList _ _ _).store.slot k = _
  rw [State.setList_store]
  exact Store.slot_setSlot ..

/-- Settles O3: State.powerOn's records, each by its value. -/
theorem powerOnRecords : Obligations.PowerOnRecords := by
  unfold Obligations.PowerOnRecords
  intro s
  refine ⟨s.powerOn, rfl, fun p => ?_, rfl, rfl, rfl, rfl, rfl, fun x => by cases x <;> rfl, rfl, rfl, rfl, fun k => ?_,
    fun n => ⟨rfl, rfl⟩, ?_, rfl, rfl, fun l m => ?_, fun f => ?_⟩
  · show (if p.inGrid then sparseGet none [] p.cell else none) = none
    split
    · rfl
    · rfl
  · exact Four.get_fill none k
  · show List.range' 0 (16384 - 0) ++ [] = _
    rw [List.append_nil, List.range_eq_range']
  · rw [State.create_slot (s := s.powerOn) (n := 0) (rest := { fresh := 1, returned := [] }) rfl, if_pos rfl]
    rfl
  · rw [show s.powerOn.freqs = Four.fill { threshold := 4096, curve := none } from rfl, Four.get_fill]
    exact ⟨rfl, rfl⟩

theorem Config.default_pattern {i : Nat} (h : i < 64) : Config.default.pattern.getLsbD i = true := by
  show (BitVec.allOnes 64).getLsbD i = true
  rw [BitVec.getLsbD_allOnes]
  exact decide_eq_true h

theorem Config.default_zones {i : Nat} (h : i < 16) : Config.default.zones.getLsbD i = true := by
  show (BitVec.allOnes 16).getLsbD i = true
  rw [BitVec.getLsbD_allOnes]
  exact decide_eq_true h

/-- Settles O4: the banks of State.powerOn are filled with their power-on values. -/
theorem powerOnBlocks : Obligations.PowerOnBlocks := by
  unfold Obligations.PowerOnBlocks
  intro s
  refine ⟨s.powerOn, rfl, rfl, rfl, rfl, fun n => ?_, rfl, rfl, fun k => ?_, rfl, rfl, rfl, rfl, rfl, rfl, rfl, rfl, rfl,
    rfl, rfl, rfl, rfl⟩
  · have hc : s.powerOn.chan n = Channel.powerOn := Eight.get_fill ..
    have hl : s.powerOn.link n = Link.powerOn := Eight.get_fill ..
    have ht : s.powerOn.txs.get n = Transmitter.quiet := Eight.get_fill ..
    rw [hc, hl, ht]
    refine ⟨rfl, rfl, rfl, rfl, rfl, rfl, rfl, rfl, rfl, rfl, rfl, rfl, rfl, rfl, rfl, rfl, rfl,
      fun i hi => Config.default_pattern hi, fun i hi => Config.default_zones hi, rfl, rfl, rfl, rfl, rfl,
      fun k => Eight.get_fill .., rfl, fun f => ⟨Four.get_fill .., Four.get_fill ..⟩, Eight.get_fill .., Eight.get_fill ..,
      Eight.get_fill .., rfl, rfl, rfl, fun e => ?_, rfl, rfl, rfl, rfl, rfl, rfl, rfl⟩
    cases e <;> exact ⟨rfl, by decide⟩
  · rw [show s.powerOn.seats = Four.fill { held := none, expiry := none } from rfl, Four.get_fill]
    exact ⟨rfl, rfl⟩

/-! ## The overrun (R184) -/

theorem exec_overruns {c : Instr} {s : State}
    (hc : c = .overrun ∨ c.request.isSome = true ∨
      (∃ (b : Byte) (l : List Byte) (ends : Bool), b ≠ 0#8 ∧ c = .requestTransferRefused ⟨b :: l, ends⟩))
    (hheld : s.held = false) (hmode : s.port.mode = .executing ∨ s.port.mode = .responding) :
    exec c s = .next s.overrun := by
  obtain rfl | hreq | ⟨b, l, ends, hb, rfl⟩ := hc
  · refine congrArg Host.Outcome.next ((State.whenRunning_running hheld _).trans ?_)
    unfold State.overrunEvent
    obtain hm | hm := hmode
    · rw [hm]
    · rw [hm]
  · obtain ⟨⟨cmd, rq⟩, hr⟩ := Option.isSome_iff_exists.mp hreq
    obtain ⟨r, act, he⟩ := exec_request hr s
    rw [he, State.takeRequest_busy hheld hmode]
  · show execRequestTransferRefused _ _ = _
    unfold execRequestTransferRefused State.transferBytes
    rw [if_neg (by rw [hheld]; decide)]
    have hhead : (b :: l).headD 0#8 ≠ 0#8 := hb
    obtain hm | hm := hmode
    · rw [hm]; exact congrArg Host.Outcome.next (if_neg hhead)
    · rw [hm]; exact congrArg Host.Outcome.next (if_neg hhead)

theorem Port.firstMiso_executing {p : Port} (h : p.mode = .executing) : p.firstMiso = 0#8 := by
  unfold Port.firstMiso
  rw [h]

/-- Settles O7. -/
theorem requestsOverrun : Obligations.RequestsOverrun := by
  unfold Obligations.RequestsOverrun
  intro c s hc hheld hmode
  refine ⟨s.overrun, exec_overruns hc hheld hmode, rfl, rfl, fun hm => ⟨?_, ?_⟩, fun hm => ⟨?_, fun r hr => ?_⟩⟩
  · exact if_neg (by rw [hm]; decide)
  · exact congrArg (· :: []) (Port.firstMiso_executing hm)
  · exact if_pos hm
  · show [s.port.firstMiso] = _
    unfold Port.firstMiso
    rw [hm, hr]
    cases hf : r.frame with
    | nil => exact absurd (congrArg List.length hf) (by simp [Response.frame, byte2])
    | cons b l =>
      show [r.frame.headD 0#8] = [b]
      rw [hf, List.headD_cons]

/-! ## The ranges of check 5 (R181) -/

theorem decide_le_of_lt {n k : Nat} (h : k < n) : decide (n ≤ k) = false := decide_eq_false (Nat.not_le.mpr h)

theorem EntryRef.inRange_of_gt {r : EntryRef} (h : 16383 < r.number) : r.inRange = false :=
  decide_eq_false (Nat.not_lt.mpr h)

theorem Pos.inGrid_of_gt {p : Pos} (h : 255 < p.row ∨ 255 < p.col) : p.inGrid = false := by
  unfold Pos.inGrid
  obtain h | h := h
  · rw [decide_eq_false (Nat.not_lt.mpr h), Bool.false_and]
  · rw [decide_eq_false (Nat.not_lt.mpr h : ¬ p.col < 256), Bool.and_false]

theorem TubeName.inRange_of {name : TubeName}
    (h : (∃ k, name = .other k) ∨ (∃ p, name = .position p ∧ (255 < p.row ∨ 255 < p.col))) : name.inRange = false := by
  obtain ⟨k, rfl⟩ | ⟨p, rfl, hp⟩ := h
  · rfl
  · exact Pos.inGrid_of_gt hp

theorem callOf_of_unknown {code d : Nat} (h : code = 0 ∨ 4 < code ∨ (code = 1 ∧ 100 < d)) :
    (callOf code d).isSome = false := by
  unfold callOf
  split
  · rw [if_neg (by omega)]; rfl
  · omega
  · omega
  · omega
  · rfl

theorem optionIn_out {lo hi v : Nat} (h : v < lo ∨ hi < v) : optionIn lo hi (some v) = false := by
  show (decide (lo ≤ v) && decide (v ≤ hi)) = false
  rw [← Bool.decide_and, decide_eq_false (by omega)]

theorem Four.all_toList {α : Type} (v : Four α) (p : α → Bool) : v.toList.all p = true ↔ ∀ k, p (v.get k) = true := by
  simp only [Four.toList, List.all_cons, List.all_nil, Bool.and_true, Bool.and_eq_true]
  refine ⟨fun ⟨h0, h1, h2, h3⟩ k => ?_, fun h => ⟨h 0, h 1, h 2, h 3⟩⟩
  match k with
  | 0 => exact h0
  | 1 => exact h1
  | 2 => exact h2
  | 3 => exact h3

theorem Four.all_toList_false {α : Type} {v : Four α} {p : α → Bool} {k : Fin 4} (h : p (v.get k) = false) :
    v.toList.all p = false := by
  rw [Bool.eq_false_iff, ne_eq, Four.all_toList]
  exact fun hall => Bool.eq_false_iff.mp h (hall k)

theorem CalFields.inRange_of_out {f : CalFields}
    (h : (∃ v, f.scale = some v ∧ (v < 1 ∨ 1000 < v)) ∨ (∃ k v, f.rotation.get k = some v ∧ 3599 < v) ∨
      (∃ k v, f.factor.get k = some v ∧ (v < 1 ∨ 4095 < v))) : f.inRange = false := by
  unfold CalFields.inRange
  obtain ⟨v, hf, hv⟩ | ⟨k, v, hf, hv⟩ | ⟨k, v, hf, hv⟩ := h
  · rw [hf, optionIn_out hv, Bool.false_and, Bool.false_and]
  · rw [Four.all_toList_false (k := k) (by rw [hf, optionIn_out (.inr hv)]), Bool.and_false, Bool.false_and]
  · rw [Four.all_toList_false (k := k) (v := f.factor) (by rw [hf, optionIn_out hv]), Bool.and_false]

/-- Settles O9: each field named is out of the range its command checks. -/
theorem rangeRefuses : Obligations.RangeRefuses := by
  unfold Obligations.RangeRefuses
  intro rq s n hn
  have hnum : numberInRange n = false := numberInRange_of_gt hn
  have hle : decide (n ≤ 7) = false := decide_le_of_lt hn
  refine ⟨fun f h => exec_out_of_range h rfl (by rw [hnum, Bool.false_and]),
    fun f h => exec_out_of_range h rfl (by rw [hnum, Bool.false_and]),
    fun d b h => exec_out_of_range h rfl hnum, fun h => exec_out_of_range h rfl hle,
    fun h => exec_out_of_range h rfl hnum, fun h => exec_out_of_range h rfl hnum,
    fun h => exec_out_of_range h rfl hnum, fun h => exec_out_of_range h rfl hnum,
    fun h => exec_out_of_range h rfl hnum,
    fun name h => exec_out_of_range h rfl (by rw [hnum, Bool.false_and]),
    fun p b e h => exec_out_of_range h rfl (by rw [hnum, Bool.false_and]), fun h => exec_out_of_range h rfl hnum,
    fun h => exec_out_of_range h rfl hnum, fun h => exec_out_of_range h rfl hnum,
    fun cls h => exec_out_of_range h rfl (by rw [hle, Bool.and_false]), fun h => exec_out_of_range h rfl hle,
    fun slot p hs h => exec_out_of_range h rfl (by unfold watchInRange; rw [decide_le_of_lt hs, Bool.false_and]),
    fun ref code d hr h => exec_out_of_range h rfl (by rw [EntryRef.inRange_of_gt hr, Bool.false_and]),
    fun ref hr h => exec_out_of_range h rfl (EntryRef.inRange_of_gt hr),
    fun ref hr h => exec_out_of_range h rfl (EntryRef.inRange_of_gt hr), fun code d hcode => ?calls,
    fun name hname => ?names, fun p hp => ⟨fun x h => exec_out_of_range h rfl (Pos.inGrid_of_gt hp),
      fun slot h => exec_out_of_range h rfl (by simp only [watchInRange, Pos.inGrid_of_gt hp, Bool.and_false])⟩,
    fun b a ha h => exec_out_of_range h rfl (decide_le_of_lt ha),
    fun ch f hf h => exec_out_of_range h rfl (by rw [CalFields.inRange_of_out hf, Bool.and_false])⟩
  case calls =>
    have hcall := callOf_of_unknown hcode
    exact ⟨fun h => exec_out_of_range h rfl hcall,
      fun ref h => exec_out_of_range h rfl (by rw [hcall, Bool.and_false])⟩
  case names =>
    have hout := TubeName.inRange_of hname
    exact ⟨fun ch h => exec_out_of_range h rfl (by rw [hout, Bool.and_false]), fun h => exec_out_of_range h rfl hout,
      fun h => exec_out_of_range h rfl hout, fun ack h => exec_out_of_range h rfl hout,
      fun h => exec_out_of_range h rfl hout, fun h => exec_out_of_range h rfl hout⟩

end Sys2Proof.Machine
end

section
/-! What the port answers (R180, R183, R184, R194): every request taken leaves a response or a long command; a read
transfer sends the held response; the response's frame. -/

namespace Sys2Proof.Machine

/-! ## What the shared operations leave of the port -/

/-- The port, with the line RESET# that holds it. -/
def State.portSide (s : State) : Port × Bool := (s.port, s.held)

/-- What every step of a run keeps, the run keeps. -/
theorem State.foldl_keeps {α β : Type} (g : State → β) {f : State → α → State} (hf : ∀ s a, g (f s a) = g s)
    (l : List α) : ∀ s : State, g (l.foldl f s) = g s := by
  induction l with
  | nil => exact fun _ => rfl
  | cons a l ih => exact fun s => (ih (f s a)).trans (hf s a)

section PortSide

variable (s : State)

@[simp] theorem State.post_portSide (c : NoticeClass) (k : Nat) : (s.post c k).portSide = s.portSide := rfl
@[simp] theorem State.setChan_portSide (n : Fin 8) (c : Channel) : (s.setChan n c).portSide = s.portSide := rfl
@[simp] theorem State.abandonSeek_portSide (n : Fin 8) : (s.abandonSeek n).portSide = s.portSide := rfl
@[simp] theorem State.freeSeat_portSide (k : Fin 4) : (s.freeSeat k).portSide = s.portSide := rfl
@[simp] theorem State.send_portSide (n : Fin 8) (k : MessageKind) (e : Echo) : (s.send n k e).portSide = s.portSide := rfl
@[simp] theorem State.setLinkRx_portSide (n : Fin 8) (l : Link) : (s.setLinkRx n l).portSide = s.portSide := rfl
@[simp] theorem State.resetCursor_portSide (n : Fin 8) : (s.resetCursor n).portSide = s.portSide := rfl

@[simp] theorem State.armCompletion_portSide : s.armCompletion.portSide = s.portSide := by
  rw [State.armCompletion_frame]; rfl

@[simp] theorem State.completionAfter_portSide (c : Census) : (s.completionAfter c).portSide = s.portSide := by
  rw [State.completionAfter_frame]; rfl

@[simp] theorem State.testSeek_portSide (n : Fin 8) : (s.testSeek n).portSide = s.portSide := by
  rw [State.testSeek_frame]; rfl

@[simp] theorem State.candidatesChanged_portSide : s.candidatesChanged.portSide = s.portSide := by
  rw [State.candidatesChanged_frame]; rfl

@[simp] theorem State.changeTube_portSide (i : Nat) (f : Tube → Tube) : (s.changeTube i f).portSide = s.portSide := by
  rw [State.changeTube_frame]; rfl

@[simp] theorem State.evaluate_portSide (i : Nat) : (s.evaluate i).portSide = s.portSide := by
  rw [State.evaluate_frame]; rfl

@[simp] theorem State.changeStatus_portSide (n : Nat) (e : Entry) : (s.changeStatus n e).portSide = s.portSide := by
  rw [State.changeStatus_frame]; rfl

@[simp] theorem State.retireList_portSide (l : List Nat) : (l.foldl State.retire s).portSide = s.portSide := by
  rw [State.retireList_frame]; rfl

@[simp] theorem State.releaseClaim_portSide (n : Fin 8) : (s.releaseClaim n).portSide = s.portSide := by
  rw [State.releaseClaim_frame]; rfl

@[simp] theorem State.grant_portSide (n : Fin 8) (i : Nat) (t : Tube) : (s.grant n i t).portSide = s.portSide := by
  rw [State.grant_frame]; rfl

@[simp] theorem State.sendClaim_portSide (n : Fin 8) (k : MessageKind) : (s.sendClaim n k).portSide = s.portSide := by
  rw [State.sendClaim_frame]; rfl

@[simp] theorem State.revive_portSide (n : Fin 8) (x : ChanState) : (s.revive n x).portSide = s.portSide := by
  rw [State.revive_frame]; rfl

@[simp] theorem State.closeSeat_portSide (k : Fin 4) : (s.closeSeat k).portSide = s.portSide := by
  unfold State.closeSeat
  split
  · rfl
  · split <;> simp

@[simp] theorem State.returnChannel_portSide (n : Fin 8) : (s.returnChannel n).portSide = s.portSide := by
  unfold State.returnChannel
  dsimp only
  split
  · rfl
  · split <;> simp

@[simp] theorem State.declare_portSide (p : Pos) (zone : Nat) (planned : Bool) :
    (s.declare p zone planned).portSide = s.portSide := by
  simp only [State.declare, State.candidatesChanged_portSide, State.completionAfter_portSide]; rfl

end PortSide

theorem Run.visits_portSide (row zone : Nat) (planned : Bool) (l : List Nat) :
    ∀ r : Run, (l.foldl (Run.visit row zone planned) r).state.portSide = r.state.portSide := by
  induction l with
  | nil => exact fun _ => rfl
  | cons c l ih =>
    intro r
    rw [List.foldl_cons, ih]
    unfold Run.visit
    split
    · rfl
    · split
      · rfl
      · split
        · exact State.declare_portSide ..
        · rfl

/-! ## Every request taken is answered, or begins a long command -/

/-- From `s` to `t` the port has taken a response to `cmd` (R183). -/
def State.answered (s : State) (cmd : Command) (t : State) : Prop :=
  t.held = s.held ∧ ∃ r : Response, r.command = cmd.code ∧ r.overrun = s.port.overrun ∧
    t.port = { mode := .responding, received := [], work := none, overrun := s.port.overrun, miso := [0#8],
               response := some r }

/-- From `s` to `t` the port has begun a long command (R183). -/
def State.begun (s : State) (t : State) : Prop :=
  t.held = s.held ∧ ∃ w : Work,
    t.port = { s.port with mode := .executing, received := [], work := some w, miso := [0#8] }

theorem State.answered_answer {s u : State} (h : u.portSide = s.portSide) (cmd : Command) (k : Status) (l : List Byte) :
    s.answered cmd (u.answer cmd k l) := by
  obtain ⟨hp, hh⟩ := Prod.mk.inj h
  exact ⟨hh, _, rfl, congrArg Port.overrun hp, by rw [← hp]; rfl⟩

theorem State.begun_start {s u : State} (h : u.portSide = s.portSide) (w : Work) : s.begun (u.start w) := by
  obtain ⟨hp, hh⟩ := Prod.mk.inj h
  exact ⟨hh, w, by rw [← hp]; rfl⟩

section Answered

variable (s : State)

theorem State.defineTubes_answered (row first last step zone : Nat) (planned : Bool) :
    s.answered .defineTubes (s.defineTubes row first last step zone planned) :=
  State.answered_answer (Run.visits_portSide ..) ..

theorem State.loadCurve_answered (f : Fin 4) (k : Nat) (l : List CurvePoint) :
    s.answered .loadCurve (s.loadCurve f k l) := by
  unfold State.loadCurve
  split <;> exact State.answered_answer (by rfl) ..

theorem State.openCampaign_answered : s.answered .openCampaign s.openCampaign := by
  unfold State.openCampaign
  split_ifs
  · exact State.answered_answer rfl ..
  · exact State.answered_answer rfl ..
  · exact State.answered_answer rfl ..
  · exact State.answered_answer (State.armCompletion_portSide _) ..

theorem State.closeCampaign_answered : s.answered .closeCampaign s.closeCampaign := by
  unfold State.closeCampaign
  split
  · exact State.answered_answer rfl ..
  · exact State.answered_answer (State.foldl_keeps State.portSide State.closeSeat_portSide ..) ..

theorem State.configure_answered (n : Fin 8) (c : Config) (k : Status) (l : List Byte) :
    s.answered .configureChannel ((s.configure n c).answer .configureChannel k l) := by
  refine State.answered_answer ?_ ..
  unfold State.configure
  dsimp only
  rw [State.testSeek_portSide]
  split_ifs <;> rfl

theorem State.setCal_answered (n : Fin 8) (f : CalFields) : s.answered .setChannelCal (s.setCal n f) := by
  unfold State.setCal
  dsimp only
  split <;> exact State.answered_answer (by rfl) ..

theorem State.startChannel_answered (n : Fin 8) : s.answered .startChannel (s.startChannel n) := by
  unfold State.startChannel
  dsimp only
  split_ifs <;> exact State.answered_answer (by simp) ..

theorem State.stopChannel_answered (n : Fin 8) : s.answered .stopChannel (s.stopChannel n) := by
  unfold State.stopChannel
  dsimp only
  split <;> exact State.answered_answer (by rfl) ..

theorem State.abandonPass_answered (n : Fin 8) : s.answered .abandon (s.abandonPass n) := by
  unfold State.abandonPass
  split <;> exact State.answered_answer (by simp) ..

theorem State.resume_answered (n : Fin 8) : s.answered .resume (s.resume n) := by
  unfold State.resume
  dsimp only
  split <;> exact State.answered_answer (by simp) ..

theorem State.channelReset_answered (n : Fin 8) : s.answered .channelReset (s.channelReset n) :=
  State.answered_answer (by simp) ..

theorem State.assignTube_answered (n : Fin 8) (name : TubeName) : s.answered .assignTube (s.assignTube n name) := by
  unfold State.assignTube
  dsimp only
  split
  · exact State.answered_answer rfl ..
  · split_ifs
    · exact State.answered_answer rfl ..
    · exact State.answered_answer rfl ..
    · unfold State.assignClaim
      dsimp only
      split <;> exact State.answered_answer (by simp) ..

theorem State.interlockClear_answered : s.answered .interlockClear s.interlockClear := by
  unfold State.interlockClear
  split_ifs
  · exact State.answered_answer rfl ..
  · exact State.answered_answer rfl ..
  · refine State.answered_answer ?_ ..
    rw [State.foldl_keeps State.portSide State.returnChannel_portSide]
    rfl

theorem State.plugTube_answered (name : TubeName) : s.answered .plugTube (s.plugTube name) := by
  unfold State.plugTube
  split
  · exact State.answered_answer rfl ..
  · split_ifs <;> exact State.answered_answer (by simp) ..

theorem State.unblockTube_answered (name : TubeName) : s.answered .unblockTube (s.unblockTube name) := by
  unfold State.unblockTube
  split
  · exact State.answered_answer rfl ..
  · split_ifs <;> exact State.answered_answer (by simp) ..

theorem State.requestRetest_answered (name : TubeName) : s.answered .requestRetest (s.requestRetest name) := by
  unfold State.requestRetest
  split
  · exact State.answered_answer rfl ..
  · split_ifs <;> exact State.answered_answer (by simp) ..

theorem State.setWatch_answered (k : Fin 4) (p : Option Pos) : s.answered .setWatch (s.setWatch k p) := by
  unfold State.setWatch
  split <;> exact State.answered_answer (by rfl) ..

@[simp] theorem State.applyCall_portSide (n : Nat) (e e' : Entry) : (s.applyCall n e e').portSide = s.portSide := by
  unfold State.applyCall
  split_ifs
  · rfl
  · simp
  · simp

theorem State.submitCall_answered (role : Role) (ref : EntryRef) (c : Call) :
    s.answered .submitCall (s.submitCall role ref c) := by
  unfold State.submitCall
  split
  · exact State.answered_answer rfl ..
  · split
    · exact State.answered_answer rfl ..
    · split_ifs <;> exact State.answered_answer (by simp) ..

theorem State.reviewDone_answered (role : Role) (name : TubeName) (a : Bool) :
    s.answered .reviewDone (s.reviewDone role name a) := by
  unfold State.reviewDone
  split
  · exact State.answered_answer rfl ..
  · split_ifs <;> exact State.answered_answer (by simp) ..

@[simp] theorem State.hold_portSide (k : Fin 4) (ref : EntryRef) (e : Entry) : (s.hold k ref e).portSide = s.portSide :=
  State.changeStatus_portSide ..

theorem State.takeEntry_answered (k : Fin 4) (ref : EntryRef) : s.answered .takeEntry (s.takeEntry k ref) := by
  unfold State.takeEntry
  split
  · exact State.answered_answer rfl ..
  · split_ifs <;> exact State.answered_answer (by simp) ..

theorem State.resolveEntry_answered (k : Fin 4) (c : Call) : s.answered .resolveEntry (s.resolveEntry k c) := by
  unfold State.resolveEntry
  split <;> exact State.answered_answer (by simp) ..

theorem State.releaseEntry_answered (k : Fin 4) : s.answered .releaseEntry (s.releaseEntry k) := by
  unfold State.releaseEntry
  split <;> exact State.answered_answer (by simp) ..

theorem State.readEntry_answered (ref : EntryRef) : s.answered .readEntry (s.readEntry ref) := by
  unfold State.readEntry
  split <;> exact State.answered_answer rfl ..

theorem State.readTube_begun (name : TubeName) : s.begun (s.readTube name) := by
  unfold State.readTube
  split <;> exact State.begun_start rfl _

end Answered

/-- The long commands (R183): the port is EXECUTING from their acceptance to their completion. -/
def Command.long (cmd : Command) : Prop :=
  cmd = .clearLayout ∨ cmd = .newCampaign ∨ cmd = .prepareLayout ∨ cmd = .planRegion ∨ cmd = .readTube ∨ cmd = .findTube

/-- Past the port's checks a request is answered, or is a long command that begins. -/
theorem exec_request_meaning {c : Instr} {cmd : Command} {rq : Requester} (h : c.request = some (cmd, rq)) (s : State) :
    ∃ r act, exec c s = .next (s.takeRequest cmd rq r act) ∧ (s.answered cmd (act s) ∨ (cmd.long ∧ s.begun (act s))) := by
  unfold Command.long
  cases c <;> cases h
  case defineTubes => exact ⟨_, _, rfl, .inl (s.defineTubes_answered ..)⟩
  case clearLayout => exact ⟨_, _, rfl, .inr ⟨by decide, State.begun_start rfl _⟩⟩
  case setLandmarks => exact ⟨_, _, rfl, .inl (State.answered_answer rfl ..)⟩
  case setCampaign => exact ⟨_, _, rfl, .inl (State.answered_answer rfl ..)⟩
  case loadCurve => exact ⟨_, _, rfl, .inl (s.loadCurve_answered ..)⟩
  case openCampaign => exact ⟨_, _, rfl, .inl s.openCampaign_answered⟩
  case closeCampaign => exact ⟨_, _, rfl, .inl s.closeCampaign_answered⟩
  case newCampaign => exact ⟨_, _, rfl, .inr ⟨by decide, State.begun_start rfl _⟩⟩
  case prepareLayout => exact ⟨_, _, rfl, .inr ⟨by decide, State.begun_start rfl _⟩⟩
  case planRegion => exact ⟨_, _, rfl, .inr ⟨by decide, State.begun_start rfl _⟩⟩
  case configureChannel => exact ⟨_, _, rfl, .inl (s.configure_answered ..)⟩
  case setChannelCal => exact ⟨_, _, rfl, .inl (s.setCal_answered ..)⟩
  case setKeepout => exact ⟨_, _, rfl, .inl (State.answered_answer rfl ..)⟩
  case setClearance => exact ⟨_, _, rfl, .inl (State.answered_answer rfl ..)⟩
  case startChannel => exact ⟨_, _, rfl, .inl (s.startChannel_answered _)⟩
  case stopChannel => exact ⟨_, _, rfl, .inl (s.stopChannel_answered _)⟩
  case abandon => exact ⟨_, _, rfl, .inl (s.abandonPass_answered _)⟩
  case resume => exact ⟨_, _, rfl, .inl (s.resume_answered _)⟩
  case channelReset => exact ⟨_, _, rfl, .inl (s.channelReset_answered _)⟩
  case assignTube => exact ⟨_, _, rfl, .inl (s.assignTube_answered ..)⟩
  case setLink => exact ⟨_, _, rfl, .inl (State.answered_answer rfl ..)⟩
  case restartLink => exact ⟨_, _, rfl, .inl (State.answered_answer rfl ..)⟩
  case interlockClear => exact ⟨_, _, rfl, .inl s.interlockClear_answered⟩
  case plugTube => exact ⟨_, _, rfl, .inl (s.plugTube_answered _)⟩
  case unblockTube => exact ⟨_, _, rfl, .inl (s.unblockTube_answered _)⟩
  case submitCall => exact ⟨_, _, rfl, .inl (s.submitCall_answered ..)⟩
  case reviewDone => exact ⟨_, _, rfl, .inl (s.reviewDone_answered ..)⟩
  case takeEntry => exact ⟨_, _, rfl, .inl (s.takeEntry_answered ..)⟩
  case resolveEntry => exact ⟨_, _, rfl, .inl (s.resolveEntry_answered ..)⟩
  case releaseEntry => exact ⟨_, _, rfl, .inl (s.releaseEntry_answered _)⟩
  case requestRetest => exact ⟨_, _, rfl, .inl (s.requestRetest_answered _)⟩
  case readTube => exact ⟨_, _, rfl, .inr ⟨by decide, s.readTube_begun _⟩⟩
  case findTube => exact ⟨_, _, rfl, .inr ⟨by decide, State.begun_start rfl _⟩⟩
  case readEntry => exact ⟨_, _, rfl, .inl (s.readEntry_answered _)⟩
  case readCensus => exact ⟨_, _, rfl, .inl (State.answered_answer rfl ..)⟩
  case readChannel => exact ⟨_, _, rfl, .inl (State.answered_answer rfl ..)⟩
  case readLink => exact ⟨_, _, rfl, .inl (State.answered_answer rfl ..)⟩
  case readStatus => exact ⟨_, _, rfl, .inl (State.answered_answer rfl ..)⟩
  case setNoticeLevel => exact ⟨_, _, rfl, .inl (State.answered_answer rfl ..)⟩
  case setFloor => exact ⟨_, _, rfl, .inl (State.answered_answer rfl ..)⟩
  case takeNotice => exact ⟨_, _, rfl, .inl (State.answered_answer rfl ..)⟩
  case setWatch => exact ⟨_, _, rfl, .inl (s.setWatch_answered ..)⟩

/-- Checks 3 and 4 are those of the permission table (R181, R182). -/
theorem permits_of_portRefusal {cmd : Command} {rq : Requester} {p : Phase} {r : Bool}
    (h : portRefusal cmd rq.role p r = none) : cmd.permits rq p = true := by
  unfold portRefusal at h
  unfold Command.permits
  cases hr : roleOf rq.role with
  | none => rw [hr] at h; exact nomatch h
  | some x =>
    simp only [hr] at h ⊢
    split_ifs at h with hrole hphase
    rw [Bool.not_eq_true', Bool.not_eq_false] at hrole hphase
    rw [hrole, hphase]
    rfl

/-! ## Bytes and check codes -/

theorem bytesNat_byte2 {n : Nat} (h : n < 65536) : bytesNat (byte2 n) = n := by
  simp only [byte2, bytesNat, List.foldl_cons, List.foldl_nil, BitVec.toNat_ofNat]
  omega

theorem crc16Bit_eq (v : Nat) : crc16Bit v = if v < 32768 then 2 * v else (2 * v - 65536) ^^^ 0x1021 := rfl

theorem crc16Bit_lt {v : Nat} (h : v < 65536) : crc16Bit v < 65536 := by
  rw [crc16Bit_eq]
  split
  · omega
  · exact Nat.xor_lt_two_pow (n := 16) (by omega) (by omega)

theorem crc16Byte_eq (v : Nat) (b : Byte) : crc16Byte v b = crc16Bit^[8] (v ^^^ (256 * b.toNat)) := by
  simp only [Function.iterate_succ_apply, Function.iterate_zero_apply, Nat.mul_comm 256]
  rfl

theorem crc16Bits_lt {v : Nat} (h : v < 65536) (n : Nat) : crc16Bit^[n] v < 65536 := by
  induction n generalizing v with
  | zero => exact h
  | succ n ih => exact ih (crc16Bit_lt h)

theorem crc16_append (l : List Byte) (b : Byte) : crc16 (l ++ [b]) = crc16Bit^[8] (crc16 l ^^^ (256 * b.toNat)) := by
  rw [crc16, List.foldl_append, ← crc16, List.foldl_cons, List.foldl_nil, crc16Byte_eq]

theorem crc16_lt (l : List Byte) : crc16 l < 65536 := by
  induction l using List.reverseRecOn with
  | nil => decide
  | append_singleton l b ih =>
    rw [crc16_append]
    have := b.isLt
    exact crc16Bits_lt (Nat.xor_lt_two_pow (n := 16) ih (by omega)) 8

/-! ## The response frame (R194) -/

/-- The bytes of a response frame before its CRC. -/
def Response.front (r : Response) : List Byte :=
  byte2 (r.body.length + 7) ++ [r.command] ++ byte1 r.status.code ++ flag1 r.overrun ++ r.body

theorem Response.frame_eq (r : Response) : r.frame = r.front ++ byte2 (crc16 r.front) := rfl

theorem Response.front_eq (r : Response) : r.front =
    BitVec.ofNat 8 ((r.body.length + 7) / 256) :: BitVec.ofNat 8 (r.body.length + 7) :: r.command ::
      BitVec.ofNat 8 r.status.code :: (if r.overrun then 1#8 else 0#8) :: r.body := by
  cases h : r.overrun <;> simp [Response.front, h, byte2, byte1, flag1]

theorem Response.front_length (r : Response) : r.front.length = r.body.length + 5 := by
  simp [Response.front_eq]

theorem Response.frame_length (r : Response) : r.frame.length = r.body.length + 7 := by
  rw [Response.frame_eq, List.length_append, Response.front_length]; rfl

theorem misoBytes_whole {l : List Byte} {n : Nat} (h : l.length ≤ n) :
    misoBytes l n = l ++ List.replicate (n - l.length) 0#8 := by
  refine List.take_of_length_le ?_
  rw [List.length_append, List.length_replicate]
  omega

theorem misoBytes_part {l : List Byte} {n : Nat} (h : n < l.length) : misoBytes l n = l.take n := by
  rw [misoBytes, List.take_append_of_le_length (Nat.le_of_lt h)]

/-! ## A read transfer (R183) -/

section Read

variable {s : State} {count : Nat}

theorem State.readTransfer_whole {r : Response} (hn : 0 < count) (hm : s.port.mode = .responding)
    (hr : s.port.response = some r) (hlen : r.frame.length ≤ count) :
    s.readTransfer count = { s with
      port := { mode := .idle, received := [], work := none, response := none, overrun := false
                miso := r.frame ++ List.replicate (count - r.frame.length) 0#8 } } := by
  unfold State.readTransfer
  rw [if_neg (by omega), hm, hr]
  dsimp only
  rw [if_pos hlen, misoBytes_whole hlen]

theorem State.readTransfer_part {r : Response} (hn : 0 < count) (hm : s.port.mode = .responding)
    (hr : s.port.response = some r) (hlen : count < r.frame.length) :
    s.readTransfer count = { s with port := { s.port with miso := r.frame.take count } } := by
  unfold State.readTransfer
  rw [if_neg (by omega), hm, hr]
  dsimp only
  rw [if_neg (by omega), misoBytes_part hlen]

theorem State.readTransfer_receiving (hm : s.port.mode = .receiving) : s.readTransfer count = s := by
  unfold State.readTransfer
  rw [hm]
  split <;> rfl

theorem State.readTransfer_none (hn : 0 < count) (h1 : s.port.mode ≠ .responding) (h2 : s.port.mode ≠ .receiving) :
    s.readTransfer count = { s with port := { s.port with miso := List.replicate count 0#8 } } := by
  unfold State.readTransfer
  rw [if_neg (by omega)]
  split
  case h_1 hm _ => exact absurd hm h1
  case h_2 hm => exact absurd hm h2
  case h_3 => rfl

end Read

theorem exec_readTransfer {s : State} (hh : s.held = false) (count : Nat) :
    exec (.readTransfer count) s = .next (s.readTransfer count) :=
  congrArg Host.Outcome.next (State.whenRunning_running hh _)

/-- Settles O10: the answer's port by definition, the requests by their meanings, the read transfer by the port's mode,
and the frame by its bytes. -/
theorem readTransferSends : Obligations.ReadTransferSends := by
  unfold Obligations.ReadTransferSends
  refine ⟨fun s cmd code status body => ⟨rfl, rfl, rfl, by simp [State.ready]⟩, fun c cmd rq s hc hopen => ?requests,
    fun s count hh hn => ?reads, fun r hlen => ?frame⟩
  case requests =>
    obtain ⟨hheld, -⟩ := State.open_iff.mp hopen
    obtain ⟨r, act, he, hact⟩ := exec_request_meaning hc s
    obtain ⟨hrefused, htaken⟩ := State.takeRequest_open hopen cmd rq r act
    cases hp : portRefusal cmd rq.role s.map.phase r with
    | some st =>
      obtain ⟨hh, hr⟩ := State.answered_answer (s := s) rfl cmd st []
      exact ⟨_, he.trans (congrArg _ (hrefused st hp)), hh.trans hheld, .inl hr⟩
    | none =>
      have htakes : s.takes cmd rq = true := by rw [State.takes, hopen, permits_of_portRefusal hp]; rfl
      obtain ⟨hh, hr⟩ | ⟨hlong, hh, hw⟩ := hact
      · exact ⟨_, he.trans (congrArg _ (htaken hp)), hh.trans hheld, .inl hr⟩
      · exact ⟨_, he.trans (congrArg _ (htaken hp)), hh.trans hheld, .inr ⟨hlong, htakes, hw⟩⟩
  case reads =>
    rw [exec_readTransfer hh]
    exact ⟨fun r hm hr => ⟨fun hl => congrArg _ (State.readTransfer_whole hn hm hr hl),
        fun hl => congrArg _ (State.readTransfer_part hn hm hr hl)⟩,
      fun hm => congrArg _ (State.readTransfer_receiving hm),
      fun h1 h2 => congrArg _ (State.readTransfer_none hn h1 h2)⟩
  case frame =>
    have hfront := r.front_length
    have hsplit : r.frame.length - 2 = r.front.length := by rw [r.frame_length, hfront]; omega
    refine ⟨r.frame_length, ?_, ?_, ?_, ?_, rfl, crc16_append, fun v _ => crc16Bit_eq v⟩
    · rw [r.frame_length, r.frame_eq, r.front_eq]
      exact bytesNat_byte2 hlen
    · rw [r.frame_eq, r.front_eq]; rfl
    · rw [r.frame_eq, r.front_eq]
      simp
    · rw [hsplit, r.frame_eq, List.drop_left, List.take_left, bytesNat_byte2 (crc16_lt _)]

end Sys2Proof.Machine
end

section
/-! The port's refusals (R181, R182), a request by its bytes (R194), and the fields of every body (11.1). -/

namespace Sys2Proof.Machine

/-! ## Checks 3 and 4 -/

theorem portRefusal_of_no_role {cmd : Command} {role : Nat} {p : Phase} {r : Bool} (h : roleOf role = none) :
    portRefusal cmd role p r = some .role := by
  simp only [portRefusal, h]

theorem portRefusal_of_role {cmd : Command} {role : Nat} {x : Role} {p : Phase} {r : Bool} (h : roleOf role = some x)
    (hx : cmd.permitsRole x = false) : portRefusal cmd role p r = some .role := by
  simp only [portRefusal, h, hx, Bool.not_false, if_true]

theorem portRefusal_of_phase {cmd : Command} {role : Nat} {x : Role} {p : Phase} {r : Bool} (h : roleOf role = some x)
    (hx : cmd.permitsRole x = true) (hp : cmd.permitsPhase p = false) : portRefusal cmd role p r = some .phase := by
  simp only [portRefusal, h, hx, hp, Bool.not_true, Bool.not_false, Bool.false_eq_true, if_false, if_true]

/-- An open port refuses a request by its role and by its phase, whatever row or frame it comes in. -/
theorem State.takeRequest_refuses {s : State} (hopen : s.open = true) (cmd : Command) (rq : Requester) (r : Bool)
    (act : State → State) :
    (roleOf rq.role = none → s.takeRequest cmd rq r act = s.answer cmd .role []) ∧
    ∀ x : Role, roleOf rq.role = some x →
      (cmd.permitsRole x = false → s.takeRequest cmd rq r act = s.answer cmd .role []) ∧
      (cmd.permitsRole x = true → cmd.permitsPhase s.map.phase = false →
        s.takeRequest cmd rq r act = s.answer cmd .phase []) := by
  obtain ⟨hrefused, -⟩ := State.takeRequest_open hopen cmd rq r act
  exact ⟨fun h => hrefused _ (portRefusal_of_no_role h), fun x hx =>
    ⟨fun h => hrefused _ (portRefusal_of_role hx h), fun h hp => hrefused _ (portRefusal_of_phase hx h hp)⟩⟩

theorem exec_request_refuses {c : Instr} {cmd : Command} {rq : Requester} (h : c.request = some (cmd, rq)) {s : State}
    (hopen : s.open = true) :
    (roleOf rq.role = none → exec c s = .next (s.answer cmd .role [])) ∧
    ∀ x : Role, roleOf rq.role = some x →
      (cmd.permitsRole x = false → exec c s = .next (s.answer cmd .role [])) ∧
      (cmd.permitsRole x = true → cmd.permitsPhase s.map.phase = false →
        exec c s = .next (s.answer cmd .phase [])) := by
  obtain ⟨r, act, he⟩ := exec_request h s
  obtain ⟨hnone, hsome⟩ := State.takeRequest_refuses hopen cmd rq r act
  rw [he]
  exact ⟨fun hr => congrArg _ (hnone hr), fun x hx =>
    ⟨fun hr => congrArg _ ((hsome x hx).1 hr), fun hr hp => congrArg _ ((hsome x hx).2 hr hp)⟩⟩

/-! ## A transfer by its bytes (R180, R181, R194) -/

/-- An open port gathers the bytes of a transfer, and judges them at its end. -/
theorem exec_transfer {s : State} {l total : List Byte} (hopen : s.open = true)
    (hidle : s.port.mode = .idle → l.headD 0#8 ≠ 0#8 ∧ total = l)
    (hrec : s.port.mode = .receiving → total = s.port.received ++ l) :
    exec (.requestTransferRefused ⟨l, false⟩) s = .next (s.receive total) ∧
    exec (.requestTransferRefused ⟨l, true⟩) s = s.judgeTransfer total := by
  obtain ⟨hheld, hmode⟩ := State.open_iff.mp hopen
  have hrun : ∀ ends, exec (.requestTransferRefused ⟨l, ends⟩) s = s.transferBytes l ends := fun ends =>
    if_neg (by rw [hheld]; decide)
  rw [hrun, hrun]
  unfold State.transferBytes
  obtain hm | hm := hmode
  · obtain ⟨hl, rfl⟩ := hidle hm
    simp only [hm, if_neg hl, Bool.false_eq_true, if_false, if_true, and_self]
  · obtain rfl := hrec hm
    simp only [hm, Bool.false_eq_true, if_false, if_true, and_self]

theorem formatGood_iff (l : List Byte) : formatGood l = true ↔
    5 ≤ (l.headD 0#8).toNat ∧ l.length = (l.headD 0#8).toNat ∧
      bytesNat (l.drop (l.length - 2)) = crc16 (l.take (l.length - 2)) := by
  cases l with
  | nil => exact ⟨nofun, fun h => absurd h.1 (by decide)⟩
  | cons b t => simp [formatGood, and_assoc]

theorem commandOf_code (cmd : Command) : commandOf cmd.code.toNat = some cmd := by cases cmd <;> rfl

theorem commandOf_none {n : Nat} (h : n = 0 ∨ 42 < n) : commandOf n = none := by
  unfold commandOf
  split
  case h_43 => rfl
  all_goals omega

theorem requesterOf_eq {b : Byte} {rq : Requester} (hr : rq.role = b.toNat / 16) (hs : rq.seat.val = b.toNat % 4) :
    requesterOf b = rq := by
  obtain ⟨role, seat⟩ := rq
  simp only at hr hs
  rw [requesterOf, Requester.mk.injEq]
  exact ⟨hr.symm, Fin.ext hs.symm⟩

theorem State.judgeTransfer_format {s : State} {l : List Byte} (h : ¬ formatGood l = true) :
    s.judgeTransfer l = .next (s.reply ((l.drop 1).headD 0#8) .format []) := by
  rw [Bool.not_eq_true] at h
  simp only [State.judgeTransfer, h, Bool.not_false, if_true]

theorem State.judgeTransfer_unknown {s : State} {l : List Byte} (h : formatGood l = true)
    (hc : commandOf ((l.drop 1).headD 0#8).toNat = none) :
    s.judgeTransfer l = .next (s.reply ((l.drop 1).headD 0#8) .unknown []) := by
  simp only [State.judgeTransfer, h, hc, Bool.not_true, Bool.false_eq_true, if_false]

theorem State.judgeTransfer_known {s : State} {l : List Byte} {c : Command} (h : formatGood l = true)
    (hc : commandOf ((l.drop 1).headD 0#8).toNat = some c) :
    s.judgeTransfer l = s.takeFrame c (requesterOf ((l.drop 2).headD 0#8)) (frameBody l) := by
  simp only [State.judgeTransfer, h, hc, Bool.not_true, Bool.false_eq_true, if_false]

theorem ofLength_some {n : Nat} {l : List Byte} {i j : Instr} (h : ofLength n l i = some j) : i = j ∧ l.length = n := by
  unfold ofLength at h
  split at h
  case isTrue hl => exact ⟨Option.some.inj h, hl⟩
  case isFalse => exact nomatch h

theorem campaignBody_length {l : List Byte} {f : CampaignFields} (h : campaignBody l = some f) : l.length = 21 := by
  unfold campaignBody at h
  simp only [Option.bind_eq_bind, Option.bind_eq_some_iff] at h
  obtain ⟨_, -, _, -, _, -, _, -, _, -, _, -, _, -, _, -, _, -, h⟩ := h
  split at h
  case isTrue hl => exact hl
  case isFalse => exact nomatch h

theorem calFieldsBody_length {l : List Byte} {f : CalFields} (h : calFieldsBody l = some f) : l.length = 28 := by
  unfold calFieldsBody at h
  simp only [Option.bind_eq_bind, Option.bind_eq_some_iff] at h
  obtain ⟨_, -, _, -, _, -, _, -, _, -, h⟩ := h
  split at h
  case isTrue hl => exact hl
  case isFalse => exact nomatch h

/-- The bytes that the fields of a command's body take (11.1). -/
def Command.bodyLength (c : Command) (l : List Byte) : Nat :=
  match c with
  | .defineTubes => 6
  | .setLandmarks => 1 + 2 * field l 0 1
  | .setCampaign => 21
  | .loadCurve => 4 + 3 * field l 3 1
  | .planRegion => 9
  | .configureChannel => 31
  | .setChannelCal => 28
  | .setKeepout => 10
  | .submitCall => 5
  | .assignTube | .setLink | .reviewDone | .findTube | .setWatch => 4
  | .plugTube | .unblockTube | .takeEntry | .requestRetest | .readTube | .readEntry => 3
  | .resolveEntry | .setNoticeLevel => 2
  | .setClearance | .startChannel | .stopChannel | .abandon | .resume | .channelReset | .restartLink | .readChannel
  | .readLink | .setFloor => 1
  | .clearLayout | .openCampaign | .closeCampaign | .newCampaign | .prepareLayout | .interlockClear
  | .releaseEntry | .readCensus | .readStatus | .takeNotice => 0

/-- A body spells a request of its command and its requester, and has the length that its fields take (11.1). -/
theorem requestOf_some {c : Command} {rq : Requester} {l : List Byte} {i : Instr} (h : requestOf c rq l = some i) :
    i.request = some (c, rq) ∧ l.length = c.bodyLength l := by
  cases c
  case setCampaign =>
    obtain ⟨f, hf, rfl⟩ := Option.map_eq_some_iff.mp h
    exact ⟨rfl, campaignBody_length hf⟩
  case setChannelCal =>
    obtain ⟨f, hf, rfl⟩ := Option.map_eq_some_iff.mp h
    exact ⟨rfl, calFieldsBody_length hf⟩
  case setWatch =>
    simp only [requestOf] at h
    split at h
    · obtain ⟨rfl, hl⟩ := ofLength_some h
      exact ⟨rfl, hl⟩
    · obtain ⟨rfl, hl⟩ := ofLength_some h
      exact ⟨rfl, hl⟩
    · exact nomatch h
  all_goals
    obtain ⟨rfl, hl⟩ := ofLength_some h
    exact ⟨rfl, hl⟩

/-- A good frame of a known command is refused by its role and phase, and otherwise carried out as its row. -/
theorem State.takeFrame_spec {s : State} (hopen : s.open = true) (cmd : Command) (rq : Requester) (l : List Byte) :
    (roleOf rq.role = none → s.takeFrame cmd rq l = .next (s.answer cmd .role [])) ∧
    (∀ r : Role, roleOf rq.role = some r →
      (cmd.permitsRole r = false → s.takeFrame cmd rq l = .next (s.answer cmd .role [])) ∧
      (cmd.permitsRole r = true → cmd.permitsPhase s.map.phase = false →
        s.takeFrame cmd rq l = .next (s.answer cmd .phase []))) ∧
    (∀ c : Instr, requestOf cmd rq l = some c → c.request = some (cmd, rq) ∧ s.takeFrame cmd rq l = exec c s) ∧
    (requestOf cmd rq l = none → s.takes cmd rq = true → s.takeFrame cmd rq l = .next (s.answer cmd .range [])) := by
  cases h : requestOf cmd rq l with
  | none =>
    have ht : s.takeFrame cmd rq l = .next (s.takeRequest cmd rq false id) := by simp only [State.takeFrame, h]
    obtain ⟨hnone, hsome⟩ := State.takeRequest_refuses hopen cmd rq false id
    refine ⟨fun hr => ?_, fun r hr => ⟨fun hx => ?_, fun hx hp => ?_⟩, fun c hc => (nomatch hc), fun _ htakes => ?_⟩
    · rw [ht, hnone hr]
    · rw [ht, (hsome r hr).1 hx]
    · rw [ht, (hsome r hr).2 hx hp]
    · rw [ht, State.takeRequest_takes htakes, if_neg Bool.false_ne_true]
  | some i =>
    obtain ⟨hi, -⟩ := requestOf_some h
    have ht : s.takeFrame cmd rq l = exec i s := by
      simp only [State.takeFrame, h]
      exact carryOut_request (by rw [hi]; rfl) s
    obtain ⟨hnone, hsome⟩ := exec_request_refuses hi hopen
    refine ⟨fun hr => ht.trans (hnone hr), fun r hr => ⟨fun hx => ht.trans ((hsome r hr).1 hx),
      fun hx hp => ht.trans ((hsome r hr).2 hx hp)⟩, fun c hc => ?_, fun hc => (nomatch hc)⟩
    obtain rfl := Option.some.inj hc
    exact ⟨hi, ht⟩

/-! ## The fields of the bodies (11.1) -/

theorem requestOf_nullary (rq : Requester) : ∀ ci ∈
    [(Command.clearLayout, Instr.clearLayout rq), (.openCampaign, .openCampaign rq),
     (.closeCampaign, .closeCampaign rq), (.newCampaign, .newCampaign rq), (.prepareLayout, .prepareLayout rq),
     (.interlockClear, .interlockClear rq), (.releaseEntry, .releaseEntry rq), (.readCensus, .readCensus rq),
     (.readStatus, .readStatus rq), (.takeNotice, .takeNotice rq)],
    requestOf ci.1 rq [] = some ci.2 := by
  simp only [List.forall_mem_cons, List.not_mem_nil, false_implies, implies_true, and_true]
  exact ⟨rfl, rfl, rfl, rfl, rfl, rfl, rfl, rfl, rfl, rfl⟩

theorem requestOf_unary (rq : Requester) (a : Byte) : ∀ ci ∈
    [(Command.setClearance, Instr.setClearance rq a.toNat), (.startChannel, .startChannel rq a.toNat),
     (.stopChannel, .stopChannel rq a.toNat), (.abandon, .abandon rq a.toNat), (.resume, .resume rq a.toNat),
     (.channelReset, .channelReset rq a.toNat), (.restartLink, .restartLink rq a.toNat),
     (.readChannel, .readChannel rq a.toNat), (.readLink, .readLink rq a.toNat), (.setFloor, .setFloor rq a.toNat)],
    requestOf ci.1 rq [a] = some ci.2 := by
  simp [requestOf, ofLength]

theorem requestOf_fixed (rq : Requester) (a b c d e f : Byte) :
    requestOf .defineTubes rq [a, b, c, d, e, f] =
      some (.defineTubes rq a.toNat b.toNat c.toNat d.toNat e.toNat (f.getLsbD 0)) ∧
    requestOf .setLink rq [a, b, c, d] = some (.setLink rq a.toNat b.toNat (c.getLsbD 0)
      { syncCorrected := d.getLsbD 0, headerDamaged := d.getLsbD 1, payloadDamaged := d.getLsbD 2
        length := d.getLsbD 3, kind := d.getLsbD 4, source := d.getLsbD 5, queueOverrun := d.getLsbD 6
        sequence := d.getLsbD 7 }) ∧
    requestOf .resolveEntry rq [a, b] = some (.resolveEntry rq a.toNat b.toNat) ∧
    requestOf .setNoticeLevel rq [a, b] = some (.setNoticeLevel rq a.toNat b.toNat) ∧
    requestOf .findTube rq [a, b, c, d] =
      some (.findTube rq { row := a.toNat, col := b.toNat } (BitVec.ofNat 10 (c.toNat + 256 * d.toNat))) ∧
    requestOf .setWatch rq [a, 0#8, b, c] = some (.setWatch rq a.toNat none) ∧
    requestOf .setWatch rq [a, 1#8, b, c] = some (.setWatch rq a.toNat (some { row := b.toNat, col := c.toNat })) ∧
    (1 < d.toNat → requestOf .setWatch rq [a, d, b, c] = none) := by
  refine ⟨?_, ?_, ?_, ?_, ?_, ?_, ?_, fun hd => ?_⟩
  · simp [requestOf, ofLength, flagField_zero, flagField_succ]
  · simp [requestOf, ofLength, enablesField, flagField_zero, flagField_succ]
  · simp [requestOf, ofLength]
  · simp [requestOf, ofLength]
  · have hbits : BitVec.ofNat 10 (flagsField [a, b, c, d] 2 10) = BitVec.ofNat 10 (c.toNat + 256 * d.toNat) := by
      refine BitVec.eq_of_getLsbD_eq fun k hk => ?_
      rw [BitVec.getLsbD_ofNat, BitVec.getLsbD_ofNat, flagsField_bits _ _ _ _ hk, decide_eq_true hk, Bool.true_and,
        Bool.true_and, flagField_succ, flagField_succ, Nat.add_comm, Nat.mul_comm 256, Nat.mul_comm,
        Nat.testBit_two_pow_mul_add (i := 8) d.toNat c.isLt]
      split
      case isTrue h => rw [flagField_zero _ _ _ h]; rfl
      case isFalse h =>
        rw [flagField, Nat.zero_add, show k / 8 = 0 + 1 by omega, field_succ, field_one,
          show k % 8 = k - 8 by omega]
    simp only [requestOf, ofLength, hbits, posField, List.length_cons, List.length_nil, if_true, field_succ, field_one]
  · simp [requestOf, ofLength]
  · simp [requestOf, ofLength, posField]
  · simp only [requestOf, field_succ, field_one]
    split
    case h_3 => rfl
    all_goals omega

theorem requestOf_entry (rq : Requester) (a b c d e : Byte) {ref : EntryRef}
    (h : ref = { number := 256 * a.toNat + b.toNat, issue := c.toNat }) :
    requestOf .submitCall rq [a, b, c, d, e] = some (.submitCall rq ref d.toNat e.toNat) ∧
    requestOf .takeEntry rq [a, b, c] = some (.takeEntry rq ref) ∧
    requestOf .readEntry rq [a, b, c] = some (.readEntry rq ref) := by
  subst h
  simp [requestOf, ofLength, refField, Nat.mul_comm]

theorem nameField_succ (x : Byte) (l : List Byte) (start : Nat) : nameField (x :: l) (start + 1) = nameField l start :=
  rfl

theorem requestOf_name (rq : Requester) (k a b c : Byte) {name : TubeName}
    (h0 : k = 0#8 → name = .position { row := a.toNat, col := b.toNat })
    (h1 : k = 1#8 → name = .index (256 * a.toNat + b.toNat)) (h2 : 1 < k.toNat → name = .other k.toNat) :
    requestOf .assignTube rq [c, k, a, b] = some (.assignTube rq c.toNat name) ∧
    requestOf .reviewDone rq [k, a, b, c] = some (.reviewDone rq name (c.getLsbD 0)) ∧
    requestOf .plugTube rq [k, a, b] = some (.plugTube rq name) ∧
    requestOf .unblockTube rq [k, a, b] = some (.unblockTube rq name) ∧
    requestOf .requestRetest rq [k, a, b] = some (.requestRetest rq name) ∧
    requestOf .readTube rq [k, a, b] = some (.readTube rq name) := by
  simp [requestOf, ofLength, nameField_succ, nameField_zero h0 h1 h2, flagField_zero, flagField_succ]

theorem boundsField_succ (x : Byte) (l : List Byte) (start : Nat) :
    boundsField (x :: l) (start + 1) = boundsField l start := rfl

theorem boundsField_zero (a b c d e f g h : Byte) (l : List Byte) :
    boundsField (a :: b :: c :: d :: e :: f :: g :: h :: l) 0 =
      { rowLo := (a ++ b).toInt, rowHi := (c ++ d).toInt, colLo := (e ++ f).toInt, colHi := (g ++ h).toInt } := by
  simp only [boundsField, signedField_succ, signedField_zero]

theorem requestOf_bounds (rq : Requester) (a b c d e f g h i j : Byte) {bounds : Bounds}
    (hb : bounds = { rowLo := (a ++ b).toInt, rowHi := (c ++ d).toInt, colLo := (e ++ f).toInt
                     colHi := (g ++ h).toInt }) :
    requestOf .planRegion rq [a, b, c, d, e, f, g, h, i] = some (.planRegion rq bounds i.toNat) ∧
    requestOf .setKeepout rq [i, j, a, b, c, d, e, f, g, h] =
      some (.setKeepout rq i.toNat (j.getLsbD 0) bounds) := by
  subst hb
  simp [requestOf, ofLength, boundsField_succ, boundsField_zero, flagField_zero, flagField_succ]

theorem requestOf_campaign (rq : Requester) {body : List Byte} {f : CampaignFields} (hlen : body.length = 21)
    (h0 : carried body 0 2 f.length) (h1 : carried body 3 1 f.plugLimit) (h2 : carried body 5 1 f.tolerance)
    (h3 : carried body 7 1 f.mergeWindow) (h4 : carried body 9 1 f.growth) (h5 : carried body 11 1 f.attemptLimit)
    (h6 : carried body 13 2 f.overtravel) (h7 : carried body 16 1 f.holdLimit) (h8 : carried body 18 2 f.poolLevel) :
    requestOf .setCampaign rq body = some (.setCampaign rq f) := by
  simp only [requestOf, campaignBody, optionField_of_carried h0, optionField_of_carried h1, optionField_of_carried h2,
    optionField_of_carried h3, optionField_of_carried h4, optionField_of_carried h5, optionField_of_carried h6,
    optionField_of_carried h7, optionField_of_carried h8, Option.bind_eq_bind, Option.bind_some, if_pos hlen,
    Option.map_some]

theorem requestOf_cal (rq : Requester) {body : List Byte} {f : CalFields} (hlen : body.length = 28)
    (hs : carried body 1 2 f.scale)
    (hk : ∀ k : Fin 4, carried body (4 + 6 * k.val) 2 (f.rotation.get k) ∧
      carried body (7 + 6 * k.val) 2 (f.factor.get k)) :
    requestOf .setChannelCal rq body = some (.setChannelCal rq (field body 0 1) f) := by
  have hfreq : ∀ k : Fin 4,
      frequencyCalBody body (4 + 6 * k.val) = some (f.rotation.get k, f.factor.get k) := fun k => by
    have hfactor := optionField_of_carried (hk k).2
    rw [show 7 + 6 * k.val = 4 + 6 * k.val + 3 by omega] at hfactor
    simp only [frequencyCalBody, optionField_of_carried (hk k).1, hfactor, Option.bind_eq_bind, Option.bind_some]
  have h0 : frequencyCalBody body 4 = _ := hfreq 0
  have h1 : frequencyCalBody body 10 = _ := hfreq 1
  have h2 : frequencyCalBody body 16 = _ := hfreq 2
  have h3 : frequencyCalBody body 22 = _ := hfreq 3
  simp only [requestOf, calFieldsBody, optionField_of_carried hs, h0, h1, h2, h3, Option.bind_eq_bind, Option.bind_some,
    if_pos hlen, Option.map_some]
  rfl

theorem flagField_of_byte (body : List Byte) (start k : Nat) (hk : k < 8) :
    flagField body start k = (field body start 1).testBit k := by
  rw [flagField, Nat.div_eq_of_lt hk, Nat.mod_eq_of_lt hk, Nat.add_zero]

theorem eightField_get (body : List Byte) (start : Nat) (k : Fin 8) :
    (eightField body start).get k = (field body start 1).testBit k.val := by
  match k with
  | 0 | 1 | 2 | 3 | 4 | 5 | 6 | 7 => exact flagField_of_byte _ _ _ (by decide)

/-- The fields at their bytes are the fields read (11.1). -/
theorem configFieldsBody_of_carriedBy {body : List Byte} {f : ConfigFields} (h : f.carriedBy body) :
    configFieldsBody body = f := by
  obtain ⟨hface, hkeep, hwindow, hkeepouts, haxis, hcorner, hserp, hmix, hpattern, hzones, hstates, hprio, htick,
    hreload, hevents⟩ := h
  have hkeep' : f.keep1 = flagField body 2 0 ∧ f.keep2 = flagField body 2 1 ∧ f.keep3 = flagField body 2 2 ∧
      f.keep4 = flagField body 2 3 ∧ f.keep5 = flagField body 2 4 := by
    simp only [flagField_of_byte body 2 _ (by decide : 0 < 8), flagField_of_byte body 2 _ (by decide : 1 < 8),
      flagField_of_byte body 2 _ (by decide : 2 < 8), flagField_of_byte body 2 _ (by decide : 3 < 8),
      flagField_of_byte body 2 _ (by decide : 4 < 8)]
    simpa [List.range_succ] using hkeep
  obtain ⟨hk1, hk2, hk3, hk4, hk5⟩ := hkeep'
  have hpat : BitVec.ofNat 64 (flagsField body 16 64) = f.pattern := by
    refine BitVec.eq_of_getLsbD_eq fun k hk => ?_
    rw [BitVec.getLsbD_ofNat, decide_eq_true hk, Bool.true_and, flagsField_bits _ _ _ _ hk, flagField,
      ← hpattern (k / 8) (k % 8) (by omega) (by omega), Nat.div_add_mod]
  have hzon : BitVec.ofNat 16 (flagsField body 24 16) = f.zones := by
    refine BitVec.eq_of_getLsbD_eq fun k hk => ?_
    rw [BitVec.getLsbD_ofNat, decide_eq_true hk, Bool.true_and, flagsField_bits _ _ _ _ hk, flagField, ← hzones k hk]
  have hout : eightField body 11 = f.keepouts := Eight.ext_get fun k => by rw [eightField_get, hkeepouts]
  obtain ⟨face, k1, k2, k3, k4, k5, window, keepouts, axis, corner, serp, mix, pattern, zones, states, prio, tick, reload,
    events⟩ := f
  simp only at hface hk1 hk2 hk3 hk4 hk5 hwindow haxis hcorner hserp hmix hstates hprio htick hreload hevents hpat hzon hout
  subst hface hk1 hk2 hk3 hk4 hk5 hwindow haxis hcorner hserp hmix hstates hprio htick hreload hevents
  simp only [configFieldsBody, hpat, hzon, hout, boundsField, signedField_eq,
    flagField_of_byte body 14 0 (by decide), flagField_of_byte body 26 _ (by decide : 0 < 8),
    flagField_of_byte body 26 _ (by decide : 1 < 8), flagField_of_byte body 30 _ (by decide : 0 < 8),
    flagField_of_byte body 30 _ (by decide : 1 < 8), flagField_of_byte body 30 _ (by decide : 2 < 8),
    flagField_of_byte body 30 _ (by decide : 3 < 8), flagField_of_byte body 30 _ (by decide : 4 < 8)]

/-- A list whose every element is the one computed for its place. -/
theorem eq_map_range' {α : Type} {l : List α} {n : Nat} (hn : n = l.length) {f : Nat → α}
    (h : ∀ k v, l[k]? = some v → v = f k) : (List.range' 0 n).map f = l := by
  subst hn
  refine List.ext_getElem (by simp) fun k h1 h2 => ?_
  rw [h k l[k] (List.getElem?_eq_getElem h2)]
  simp

theorem requestOf_landmarks (rq : Requester) {body : List Byte} {l : List Nat} (hlen : body.length = 1 + 2 * l.length)
    (hn : field body 0 1 = l.length) (h : ∀ k v, l[k]? = some v → v = field body (1 + 2 * k) 2) :
    requestOf .setLandmarks rq body = some (.setLandmarks rq l) := by
  simp only [requestOf, ofLength, numbersField, hn, if_pos hlen, eq_map_range' rfl h]

theorem requestOf_curve (rq : Requester) {body : List Byte} {l : List CurvePoint}
    (hlen : body.length = 4 + 3 * l.length) (hn : field body 3 1 = l.length)
    (h : ∀ k v, l[k]? = some v → v.phase = field body (4 + 3 * k) 2 ∧ v.depth = field body (6 + 3 * k) 1) :
    requestOf .loadCurve rq body = some (.loadCurve rq (field body 0 1) (field body 1 2) l) := by
  have hp : ∀ k v, l[k]? = some v →
      v = ({ phase := field body (4 + 3 * k) 2, depth := field body (4 + 3 * k + 2) 1 } : CurvePoint) := fun k v hv => by
    obtain ⟨h1, h2⟩ := h k v hv
    rw [show 4 + 3 * k + 2 = 6 + 3 * k by omega, ← h1, ← h2]
  simp only [requestOf, ofLength, pointsField, hn, if_pos hlen, eq_map_range' rfl hp]

theorem requests_spelled (rq : Requester) : requestsSpelled rq := by
  unfold requestsSpelled
  exact ⟨requestOf_nullary rq, requestOf_unary rq, requestOf_fixed rq, fun a b c d e ref => requestOf_entry rq a b c d e,
    fun k a b c name => requestOf_name rq k a b c, fun a b c d e f g h i j bounds => requestOf_bounds rq a b c d e f g h i j,
    fun body f => requestOf_campaign rq, fun body f => requestOf_cal rq,
    fun body f hlen h => by simp only [requestOf, ofLength, if_pos hlen, configFieldsBody_of_carriedBy h],
    fun body l => requestOf_landmarks rq, fun body l => requestOf_curve rq, fun c body h => by
      obtain ⟨i, hi⟩ := Option.ne_none_iff_exists'.mp h
      exact (requestOf_some hi).2.trans (by cases c <;> rfl)⟩

/-! ## The permission table (R182) -/

theorem roleOf_eq (n : Nat) : roleOf n = (if n = 1 then some .planner else if n = 2 then some .crew
    else if n = 3 then some .primary else if n = 4 then some .secondary else if n = 5 then some .resolver
    else none) := by
  match n with
  | 0 | 1 | 2 | 3 | 4 | 5 => rfl
  | n + 6 => simp [roleOf]

/-- Settles O8: checks 3 and 4 by the permission table, the transfer by its frame, and the tables and bodies as they
stand. -/
theorem portRefusals : Obligations.PortRefusals := by
  unfold Obligations.PortRefusals
  refine ⟨fun c cmd rq s hc hopen => exec_request_refuses hc hopen, ?transfer, requests_spelled, roleOf_eq,
    fun c r => ?roles, fun c p => ?phases⟩
  case transfer =>
    intro s l total code who hopen hidle hrec hcode hwho
    obtain ⟨hpart, hwhole⟩ := exec_transfer hopen hidle hrec
    rw [hwhole]
    refine ⟨hpart, fun hbad => ?_, fun hlen htotal hcrc => ?_⟩
    · subst hcode
      refine State.judgeTransfer_format fun hgood => ?_
      obtain ⟨h1, h2, h3⟩ := (formatGood_iff total).mp hgood
      obtain h | h | h := hbad
      · omega
      · exact h h2
      · exact h h3
    · have hgood : formatGood total = true := (formatGood_iff total).mpr ⟨hlen, htotal, hcrc⟩
      subst hcode hwho
      refine ⟨fun hunknown => State.judgeTransfer_unknown hgood (commandOf_none hunknown),
        fun cmd rq hcmd hrole hseat => ?_⟩
      rw [State.judgeTransfer_known hgood (c := cmd) (by rw [← hcmd]; exact commandOf_code cmd),
        requesterOf_eq hrole hseat]
      exact State.takeFrame_spec hopen cmd rq _
  case roles => cases c <;> rfl
  case phases => cases c <;> rfl

end Sys2Proof.Machine
end

section
/-! The long commands' begin and end (R6, R12, R13, R16, R17), the layout's settings (R7, R8, R126) and OPEN_CAMPAIGN
(R10). -/

namespace Sys2Proof.Machine

/-! ## The completion check at the opening of a campaign (R12, R19) -/

/-- The check with the flag just armed in ACTIVE, as the next campaign opens: it posts and disarms exactly when planned
tubes are left and none is open. -/
theorem State.activate_eq (s : State) {complete : Bool}
    (h : complete = decide (s.map.census.plannedOpen = 0 ∧ 0 < s.map.census.planned)) :
    s.activate = { s with
      map := { s.map with phase := .active, campaign := (s.map.campaign + 1) % 65536, armed := !complete }
      notices := if complete then s.notices.post .campaignComplete 0 else s.notices } := by
  subst h
  unfold State.activate State.armCompletion State.checkCompletion
  dsimp only
  rw [if_neg (not_not.mpr rfl)]
  by_cases ho : 0 < s.map.census.plannedOpen
  · have hc : ¬ (s.map.census.plannedOpen = 0 ∧ 0 < s.map.census.planned) := fun h => by omega
    rw [if_pos ho, decide_eq_false hc]
    rfl
  · rw [if_neg ho]
    by_cases hp : 0 < s.map.census.planned
    · rw [decide_eq_true hp, decide_eq_true (⟨by omega, hp⟩ : s.map.census.plannedOpen = 0 ∧ _)]
      rfl
    · rw [decide_eq_false hp, decide_eq_false (fun h => hp h.2)]
      rfl

/-! ## COMMAND_COMPLETE (R183) -/

theorem exec_commandComplete {s : State} {w : Work} (hh : s.held = false) (hm : s.port.mode = .executing)
    (hw : s.port.work = some w) : exec .commandComplete s = .next (s.finish w) := by
  refine congrArg Host.Outcome.next ((State.whenRunning_running hh _).trans ?_)
  simp only [State.commandComplete, hm, hw]

section Finish

variable (s : State)

theorem State.finish_clearLayout (removed : Nat) :
    (s.map.tubes = [] → s.finish (.clearLayout removed) = s.complete .clearLayout .ok (byte2 removed)) ∧
    (s.map.tubes ≠ [] → s.finish (.clearLayout removed) = s) :=
  ⟨fun h => if_pos (List.isEmpty_iff.mpr h), fun h => if_neg (mt List.isEmpty_iff.mp h)⟩

theorem State.finish_newCampaign (next : Nat) :
    (s.map.tubes.length ≤ next →
      s.finish (.newCampaign next) = s.activate.complete .newCampaign .ok (byte2 s.activate.map.campaign)) ∧
    (next < s.map.tubes.length → s.finish (.newCampaign next) = s) :=
  ⟨fun h => if_neg (Nat.not_lt.mpr h), fun h => if_pos h⟩

theorem State.finish_prepareLayout (next : Nat) :
    (s.map.tubes.length ≤ next → s.finish (.prepareLayout next) =
      State.complete { s with map := { s.map with phase := .layout } } .prepareLayout .ok []) ∧
    (next < s.map.tubes.length → s.finish (.prepareLayout next) = s) :=
  ⟨fun h => if_neg (Nat.not_lt.mpr h), fun h => if_pos h⟩

theorem State.finish_planRegion (r : Rect) (a : PlanAction) (next changed : Nat) :
    (s.map.nextInRegion r next = none →
      s.finish (.planRegion r a next changed) = s.complete .planRegion .ok (byte2 changed)) ∧
    (s.map.nextInRegion r next ≠ none → s.finish (.planRegion r a next changed) = s) :=
  ⟨fun h => if_neg (by rw [h]; decide), fun h => if_pos (Option.isSome_iff_ne_none.mpr h)⟩

theorem State.finish_findTube (x : BitVec 10) (next : Nat) (found : Option Found) :
    (found ≠ none ∨ 65536 ≤ next →
      s.finish (.findTube x next found) = s.complete .findTube .ok (findBody found)) ∧
    (found = none → next < 65536 → s.finish (.findTube x next found) = s) := by
  refine ⟨fun h => if_pos ?_, fun hf hn => if_neg ?_⟩
  · rw [Bool.or_eq_true, Option.isSome_iff_ne_none, decide_eq_true_eq]
    exact h
  · rw [Bool.or_eq_true, Option.isSome_iff_ne_none, decide_eq_true_eq]
    exact not_or.mpr ⟨not_not.mpr hf, Nat.not_le.mpr hn⟩

end Finish

theorem findBody_none : findBody none = List.replicate 6 0#8 := rfl

theorem findBody_some (f : Found) : findBody (some f) =
    [1#8, BitVec.ofNat 8 (f.index / 256), BitVec.ofNat 8 f.index, BitVec.ofNat 8 f.pos.row, BitVec.ofNat 8 f.pos.col,
     BitVec.ofNat 8 f.state.code] := rfl

theorem planActionOf_code (a : PlanAction) : planActionOf (if a = .set then 0 else 1) = a := by cases a <;> rfl

/-- Settles O11: the long commands by their rows, COMMAND_COMPLETE by the work in hand. -/
theorem longCommands : Obligations.LongCommands := by
  unfold Obligations.LongCommands
  refine ⟨fun rq s => ⟨fun h => (exec_accepted (i := .clearLayout rq) h rfl rfl).trans rfl,
      fun h => (exec_accepted (i := .newCampaign rq) h rfl rfl).trans rfl,
      fun h => (exec_accepted (i := .prepareLayout rq) h rfl rfl).trans rfl,
    fun b a h => ?plan, fun p x h hp => (exec_accepted (i := .findTube rq p x) h rfl hp).trans rfl⟩,
    fun s hh hm => ⟨fun removed hw => ?clear, fun next hw => ?new, fun next hw => ?prepare,
      fun r a next changed hw => ?region, fun x next found hw => ?find⟩⟩
  case plan =>
    rw [exec_accepted h rfl (decide_eq_true (by split <;> decide)), planActionOf_code]
    rfl
  case clear =>
    rw [exec_commandComplete hh hm hw]
    exact ⟨fun h => congrArg _ ((s.finish_clearLayout removed).1 h), fun h => congrArg _ ((s.finish_clearLayout removed).2 h)⟩
  case new =>
    rw [exec_commandComplete hh hm hw]
    refine ⟨fun h => ⟨_, rfl, congrArg _ ?_⟩, fun h => congrArg _ ((s.finish_newCampaign next).2 h)⟩
    rw [(s.finish_newCampaign next).1 h, s.activate_eq rfl]
  case prepare =>
    rw [exec_commandComplete hh hm hw]
    exact ⟨fun h => congrArg _ ((s.finish_prepareLayout next).1 h), fun h => congrArg _ ((s.finish_prepareLayout next).2 h)⟩
  case region =>
    rw [exec_commandComplete hh hm hw]
    exact ⟨fun h => congrArg _ ((s.finish_planRegion r a next changed).1 h),
      fun h => congrArg _ ((s.finish_planRegion r a next changed).2 h)⟩
  case find =>
    rw [exec_commandComplete hh hm hw]
    exact ⟨fun h => congrArg _ ((s.finish_findTube x next found).1 h),
      fun hf hn => congrArg _ ((s.finish_findTube x next found).2 hf hn), fun hf => hf ▸ findBody_none,
      fun f hf => hf ▸ findBody_some f⟩

/-! ## Settings of the layout (R7, R8, R126) -/

theorem landmarksInRange_iff (length : Nat) (l : List Nat) : landmarksInRange length l = true ↔
    l.length ≤ 14 ∧ (∀ p ∈ l, 1 ≤ p ∧ p ≤ length - 1) ∧ l.Pairwise (· < ·) := by
  simp only [landmarksInRange, Bool.and_eq_true, decide_eq_true_eq, List.all_eq_true, rising_iff, and_assoc]

theorem curveValid_iff (l : List CurvePoint) : curveValid l = true ↔
    2 ≤ l.length ∧ l.length ≤ 8 ∧ (∀ p ∈ l, p.phase ≤ 3599 ∧ p.depth ≤ 100) ∧
      (l.map CurvePoint.phase).Pairwise (· < ·) := by
  simp only [curveValid, Bool.and_eq_true, decide_eq_true_eq, List.all_eq_true, rising_iff, and_assoc]

theorem optionIn_iff (lo hi : Nat) (o : Option Nat) : optionIn lo hi o = true ↔ ∀ v, o = some v → lo ≤ v ∧ v ≤ hi := by
  cases o with
  | none => exact ⟨fun _ _ => nofun, fun _ => rfl⟩
  | some w =>
    simp only [optionIn, Bool.and_eq_true, decide_eq_true_eq, Option.some.injEq, forall_eq']

theorem CampaignFields.inRange_iff (f : CampaignFields) : f.inRange = true ↔
    (∀ v, f.length = some v → 3000 ≤ v ∧ v ≤ 20000) ∧
    (∀ v, f.plugLimit = some v → 1 ≤ v ∧ v ≤ 100) ∧ (∀ v, f.tolerance = some v → v ≤ 50) ∧
    (∀ v, f.mergeWindow = some v → 1 ≤ v ∧ v ≤ 50) ∧ (∀ v, f.growth = some v → 1 ≤ v ∧ v ≤ 100) ∧
    (∀ v, f.attemptLimit = some v → 1 ≤ v ∧ v ≤ 7) ∧ (∀ v, f.overtravel = some v → v ≤ 500) ∧
    (∀ v, f.holdLimit = some v → 1 ≤ v ∧ v ≤ 255) ∧ (∀ v, f.poolLevel = some v → v ≤ 16383) := by
  simp only [CampaignFields.inRange, Bool.and_eq_true, optionIn_iff, and_assoc, Nat.zero_le, true_and]

/-- A frequency number of a request, F1 as 1, names the bank's place below it. -/
theorem fourOf_pred (k : Fin 4) : fourOf (k.val + 1 - 1) = k := fourOf_val k

theorem State.loadCurve_invalid (s : State) (k : Fin 4) (threshold : Nat) {points : List CurvePoint} (h : points ≠ [])
    (hv : curveValid points = false) :
    s.loadCurve k threshold points = s.answer .loadCurve .curveInvalid [] := by
  unfold State.loadCurve
  rw [hv, List.isEmpty_eq_false_iff.mpr h]
  rfl

theorem State.loadCurve_empty (s : State) (k : Fin 4) (threshold : Nat) :
    s.loadCurve k threshold [] = State.answer
      { s with freqs := s.freqs.set k { threshold, curve := (s.freqs.get k).curve } } .loadCurve .ok
      (freqBody { threshold, curve := (s.freqs.get k).curve }) := rfl

theorem State.loadCurve_valid (s : State) (k : Fin 4) (threshold : Nat) {points : List CurvePoint}
    (hv : curveValid points = true) :
    s.loadCurve k threshold points = State.answer
      { s with freqs := s.freqs.set k { threshold, curve := some points } } .loadCurve .ok
      (freqBody { threshold, curve := some points }) := by
  have hne : points.isEmpty = false := by
    cases points with
    | nil => exact absurd hv (by decide)
    | cons => rfl
  unfold State.loadCurve
  rw [hv, hne]
  rfl

/-- Settles O15: each setting by its range condition. -/
theorem layoutSettings : Obligations.LayoutSettings := by
  unfold Obligations.LayoutSettings
  refine ⟨fun rq s => ⟨fun l h => ⟨fun hl => ?_, fun hl => ?_⟩, fun f h => ⟨fun hf => ?_, fun hf => ?_, f.inRange_iff⟩⟩,
    fun rq s freq threshold points h => ⟨curveValid_iff points, fun hout => ?_, fun k hk h1 h2 => ?_⟩⟩
  · exact (exec_accepted (i := .setLandmarks rq l) h rfl ((landmarksInRange_iff _ l).mpr hl)).trans rfl
  · refine exec_out_of_range h rfl (Bool.eq_false_iff.mpr fun hin => ?_)
    obtain ⟨hlen, hall, hrise⟩ := (landmarksInRange_iff _ l).mp hin
    obtain hl | ⟨p, hp, hl⟩ | hl := hl
    · omega
    · have := hall p hp
      omega
    · exact hl hrise
  · exact ⟨f.apply s.map.params, (exec_accepted (i := .setCampaign rq f) h rfl hf).trans rfl, rfl⟩
  · exact exec_out_of_range h rfl hf
  · refine exec_out_of_range h rfl (Bool.eq_false_iff.mpr fun hin => ?_)
    simp only [Bool.and_eq_true, decide_eq_true_eq] at hin
    omega
  · subst hk
    have hin : (1 ≤ k.val + 1 && k.val + 1 ≤ 4 && (1 ≤ threshold && threshold ≤ 4096)) = true := by
      simp only [Bool.and_eq_true, decide_eq_true_eq]
      omega
    rw [exec_accepted h rfl hin, fourOf_pred]
    refine ⟨fun hne hv => congrArg _ (s.loadCurve_invalid k threshold hne hv), fun he => ?_,
      fun hv => congrArg _ (s.loadCurve_valid k threshold hv)⟩
    rw [he, s.loadCurve_empty]

/-! ## OPEN_CAMPAIGN (R10) -/

theorem TubeMap.landmarksValid_iff (m : TubeMap) : m.landmarksValid = true ↔
    ∃ l, m.landmarks = some l ∧ ∀ p, l.getLast? = some p → p ≤ m.params.length - 1 := by
  unfold TubeMap.landmarksValid
  cases m.landmarks with
  | none => exact ⟨nofun, fun ⟨_, h, _⟩ => nomatch h⟩
  | some l =>
    simp only [Option.some.injEq, exists_eq_left']
    cases l.getLast? with
    | none => exact ⟨fun _ _ => nofun, fun _ => rfl⟩
    | some p => simp only [decide_eq_true_eq, Option.some.injEq, forall_eq']

theorem Four.any_toList {α : Type} (v : Four α) (p : α → Bool) : v.toList.any p = true ↔ ∃ k, p (v.get k) = true := by
  rw [← Bool.not_eq_false, List.any_eq_not_all_not, Bool.not_eq_false', Four.all_toList]
  simp only [Bool.not_eq_true', not_forall, Bool.not_eq_false]

theorem State.curveMissing_iff (s : State) : s.curveMissing = true ↔
    ∃ f : Fin 4, (s.freqs.get f).threshold < 4096 ∧ (s.freqs.get f).curve = none := by
  simp only [State.curveMissing, Four.any_toList, Bool.and_eq_true, decide_eq_true_eq, Option.isNone_iff_eq_none]

theorem exec_openCampaign {s : State} {rq : Requester} (h : s.takes .openCampaign rq = true) :
    exec (.openCampaign rq) s = .next s.openCampaign := exec_accepted h rfl rfl

/-- Settles O16: the checks in their order, each by what it fails on, and the opening by the check it applies. -/
theorem openCampaignOpens : Obligations.OpenCampaignOpens := by
  unfold Obligations.OpenCampaignOpens
  intro rq s h
  rw [exec_openCampaign h]
  unfold State.openCampaign
  refine ⟨s.map.landmarksValid_iff, fun ht => ?_, fun ht hl => ?_, fun ht hl hc => ?_, fun ht hl hc => ⟨_, rfl, ?_⟩⟩
  · rw [if_pos (List.isEmpty_iff.mpr ht)]
  · rw [if_neg (mt List.isEmpty_iff.mp ht), hl]
    rfl
  · rw [if_neg (mt List.isEmpty_iff.mp ht), hl, s.curveMissing_iff.mpr hc]
    rfl
  · have hm : s.curveMissing = false := Bool.eq_false_iff.mpr fun hmiss => by
      obtain ⟨f, h1, h2⟩ := s.curveMissing_iff.mp hmiss
      exact hc f h1 h2
    rw [if_neg (mt List.isEmpty_iff.mp ht), hl, hm, s.activate_eq rfl]
    rfl

end Sys2Proof.Machine
end

section
/-! PROOFS. The declaration of tubes (O12, O13). -/

namespace Sys2Proof.Machine

theorem State.takes_permitsPhase {s : State} {c : Command} {rq : Requester} (h : s.takes c rq = true) :
    c.permitsPhase s.map.phase = true := by
  unfold State.takes Command.permits at h
  split at h
  · simp at h
  · simp only [Bool.and_eq_true] at h
    exact h.2.2

/-! ## The columns of a run (R4) -/

theorem mem_runColumns {first last step : Nat} (hl : first ≤ last) (hs : step = 1 ∨ step = 2) (c : Nat) :
    c ∈ runColumns first last step ↔ first ≤ c ∧ c ≤ last ∧ (c - first) % step = 0 := by
  simp only [runColumns, List.mem_map, List.mem_range'_1]
  rcases hs with rfl | rfl
  · exact ⟨by rintro ⟨k, hk, rfl⟩; omega, fun h => ⟨c - first, by omega, by omega⟩⟩
  · exact ⟨by rintro ⟨k, hk, rfl⟩; omega, fun h => ⟨(c - first) / 2, by omega, by omega⟩⟩

theorem runColumns_rising {first last step : Nat} (hs : step = 1 ∨ step = 2) :
    (runColumns first last step).Pairwise (· < ·) := by
  refine List.Pairwise.map _ (fun a b hab => ?_) List.pairwise_lt_range'
  exact Nat.add_lt_add_left (Nat.mul_lt_mul_of_pos_right hab (by omega)) first

theorem runColumns_lt {first last step : Nat} (hl : first ≤ last) (hs : step = 1 ∨ step = 2) (hlast : last < 256) :
    ∀ c ∈ runColumns first last step, c < 256 :=
  fun c hc => Nat.lt_of_le_of_lt ((mem_runColumns hl hs c).mp hc).2.1 hlast

theorem runColumns_nodup {first last step : Nat} (hs : step = 1 ∨ step = 2) : (runColumns first last step).Nodup :=
  (runColumns_rising hs).imp Nat.ne_of_lt

/-! ## The run and its answer (R5) -/

theorem State.declares_answer {s u : State} {row zone : Nat} {planned : Bool} {free : List Nat}
    (h : s.declares u row zone planned free) (c : Command) (k : Status) (l : List Byte) :
    s.declares (u.answer c k l) row zone planned free := by
  obtain ⟨htubes, hcells, hquiet, hsignal, hframe⟩ := h
  exact ⟨htubes, hcells, hquiet, hsignal,
    (congrArg (fun v : State => { v with port := (u.answer c k l).port }) hframe).trans rfl⟩

/-- The bytes in which DEFINE_TUBES answers, from the columns declared and the columns visited. -/
theorem RunStands.body {s : State} {row zone : Nat} {planned : Bool} {r : Run} {seen free : List Nat}
    (h : RunStands s row zone planned r seen free) :
    byte2 r.declared ++ byte2 r.skipped ++ presence 2 byte2 r.first =
      byte2 free.length ++ byte2 (seen.length - free.length) ++
        (if free = [] then [0#8, 0#8, 0#8] else 1#8 :: byte2 s.map.tubes.length) := by
  rw [h.declared, h.skipped, h.first]
  split <;> rfl

/-- The run over the columns `cols`, from its beginning. -/
def State.runOver (s : State) (row zone : Nat) (planned : Bool) (cols : List Nat) : Run :=
  cols.foldl (Run.visit row zone planned) { state := s, declared := 0, skipped := 0, first := none, full := false }

theorem State.runOver_stands {s : State} {row zone : Nat} {planned : Bool} {cols : List Nat}
    (hl : s.map.phase = .layout) (hr : row < 256) (hlt : ∀ c ∈ cols, c < 256) (hnd : cols.Nodup)
    (hroom : s.map.tubes.length + (cols.filter (fun c => (s.map.at { row, col := c }).isNone)).length ≤ 32768) :
    RunStands s row zone planned (s.runOver row zone planned cols) cols
      (cols.filter (fun c => (s.map.at { row, col := c }).isNone)) :=
  RunStands.visit hl hr (RunStands.start s row zone planned) hlt hnd hroom

/-- The free column at which a full run stops, and the columns behind it (R5). -/
theorem State.runOver_stop {s : State} {row zone : Nat} {planned : Bool} {before after : List Nat} {stop : Nat}
    (h : RunStands s row zone planned (s.runOver row zone planned before) before
      (before.filter (fun c => (s.map.at { row, col := c }).isNone)))
    (hr : row < 256) (hc : stop < 256) (hn : stop ∉ before) (hat : s.map.at { row, col := stop } = none)
    (hfull : s.map.tubes.length + (before.filter (fun c => (s.map.at { row, col := c }).isNone)).length = 32768) :
    s.runOver row zone planned (before ++ stop :: after) = { s.runOver row zone planned before with full := true } := by
  have hcell : (s.runOver row zone planned before).state.map.at { row, col := stop } = none := by
    rw [h.declares.2.1 _ (by simp [Pos.inGrid, hr, hc]), if_neg, hat]
    exact fun hm => hn (h.sub _ hm.2)
  have hlen : ¬ (s.runOver row zone planned before).state.map.tubes.length < Config.tubeLimit := by
    rw [h.declares.1, List.length_append, List.length_map, hfull]
    decide
  have hstop : Run.visit row zone planned (s.runOver row zone planned before) stop =
      { s.runOver row zone planned before with full := true } := by
    simp only [Run.visit, h.full, hcell, Bool.false_eq_true, if_false, if_neg hlen]
  have hsplit : s.runOver row zone planned (before ++ stop :: after) =
      after.foldl (Run.visit row zone planned) (Run.visit row zone planned (s.runOver row zone planned before) stop) :=
    List.foldl_append.trans rfl
  rw [hsplit, hstop, Run.visit_full _ _ _ _ _ rfl]

theorem runInRange_iff (row first last step zone : Nat) : runInRange row first last step zone = true ↔
    row < 256 ∧ first < 256 ∧ last < 256 ∧ (step = 1 ∨ step = 2) ∧ zone < 16 ∧ first ≤ last := by
  simp only [runInRange, Bool.and_eq_true, Bool.or_eq_true, decide_eq_true_eq, beq_iff_eq, and_assoc]

/-- An accepted DEFINE_TUBES, through the run over its columns. -/
theorem exec_defineTubes {rq : Requester} {s : State} {row first last step zone : Nat} {planned : Bool}
    (h : s.takes .defineTubes rq = true) (hr : runInRange row first last step zone = true) :
    exec (.defineTubes rq row first last step zone planned) s =
      .next ((s.runOver row zone planned (runColumns first last step)).state.answer .defineTubes
        (if (s.runOver row zone planned (runColumns first last step)).full then .full else .ok)
        (byte2 (s.runOver row zone planned (runColumns first last step)).declared ++
          byte2 (s.runOver row zone planned (runColumns first last step)).skipped ++
          presence 2 byte2 (s.runOver row zone planned (runColumns first last step)).first)) :=
  (exec_accepted (i := .defineTubes rq row first last step zone planned) h rfl hr).trans rfl

/-- Settles O12, by the run over the columns with room for each. -/
theorem defineTubesDeclares : Obligations.DefineTubesDeclares := by
  unfold Obligations.DefineTubesDeclares
  intro rq s row first last step zone planned free h hrow hfl hlast hstep hzone hfree hroom
  have hlayout : s.map.phase = .layout := of_decide_eq_true (State.takes_permitsPhase h)
  have hstands := State.runOver_stands (planned := planned) (zone := zone) hlayout hrow
    (runColumns_lt hfl hstep hlast) (runColumns_nodup hstep) (hfree ▸ hroom)
  rw [← hfree] at hstands
  refine ⟨_, exec_defineTubes h ((runInRange_iff ..).mpr ⟨hrow, by omega, hlast, hstep, hzone, hfl⟩),
    State.declares_answer hstands.declares .., ?_⟩
  rw [State.answer_port, hstands.full, hstands.body, hstands.port]
  rfl

/-- Settles O13: the run up to the free column at which it stops, and the refusals. -/
theorem defineTubesLimits : Obligations.DefineTubesLimits := by
  unfold Obligations.DefineTubesLimits
  refine ⟨?_, ?_, fun first last step hfl hstep => ⟨runColumns_rising hstep, mem_runColumns hfl hstep⟩⟩
  · intro rq s row first last step zone planned before after free stop h hrow hfl hlast hstep hzone hcols hat hfree hfull
    have hlayout : s.map.phase = .layout := of_decide_eq_true (State.takes_permitsPhase h)
    have hlt := runColumns_lt hfl hstep hlast
    have hnd := runColumns_nodup (first := first) (last := last) hstep
    rw [hcols] at hlt hnd
    have hstop : stop ∉ before := fun hm => (List.nodup_append.mp hnd).2.2 stop hm stop (by simp) rfl
    have hstands := State.runOver_stands (planned := planned) (zone := zone) hlayout hrow
      (fun c hc => hlt c (by simp [hc])) (List.nodup_append.mp hnd).1 (by rw [← hfree, hfull])
    have hrun := State.runOver_stop (after := after) hstands hrow (hlt stop (by simp)) hstop hat (by rw [← hfree, hfull])
    rw [← hfree] at hstands
    refine ⟨_, exec_defineTubes h ((runInRange_iff ..).mpr ⟨hrow, by omega, hlast, hstep, hzone, hfl⟩), ?_⟩
    rw [hcols, hrun]
    refine ⟨State.declares_answer hstands.declares .., ?_⟩
    rw [State.answer_port, hstands.body, hstands.port]
    rfl
  · intro rq s row first last step zone planned h hout
    refine exec_out_of_range (i := .defineTubes rq row first last step zone planned) h rfl ?_
    rw [Bool.eq_false_iff, ne_eq, runInRange_iff]
    omega

end Sys2Proof.Machine
end

section
/-! Retirement of a tube's entries (R155, R156), and with it the removal and the rollover of tubes (O14, O18). -/

namespace Sys2Proof.Machine

/-! ## The reach of posts, watches and the completion check -/

/-- From `s` to `u` no notice of another class than those of `l` has entered the set. -/
def State.postsOnly (s u : State) (l : List NoticeClass) : Prop :=
  ∀ m ∈ u.notices.pending, m ∈ s.notices.pending ∨ m.cls ∈ l

theorem State.postsOnly_quiet {s u : State} {l : List NoticeClass} (h : s.postsOnly u l) {c : NoticeClass} (hc : c ∉ l) :
    ∀ m ∈ u.notices.pending, m.cls = c → m ∈ s.notices.pending :=
  fun m hm he => (h m hm).elim id fun hl => absurd (he ▸ hl) hc

theorem State.postsOnly_trans {s u v : State} {l : List NoticeClass} (h : s.postsOnly u l) (h' : u.postsOnly v l) :
    s.postsOnly v l :=
  fun m hm => (h' m hm).elim (h m) .inr

theorem State.completes_postWatch {s u : State} (h : s.completes u) (p : Pos) : s.completes (u.postWatch p) := by
  refine State.completes_later h ?_ ?_ ?_ fun m hm hc => ?_
  · rw [State.postWatch_frame]
  · rw [State.postWatch_frame]
  · exact fun ht => told_of_kept (fun _ hP => State.postWatch_notices hP u p) ht
  · exact (State.postWatch_enters hm).elim id fun hw => absurd (hc.symm.trans hw) (by decide)

/-- What a step does besides leaves `completes` as it was: the census, the flag and the notices are the same. -/
theorem State.completes_of_same {s u v : State} (h : s.completes u) (hm : v.map = u.map) (hn : v.notices = u.notices) :
    s.completes v :=
  State.completes_later h (by rw [hm]) (by rw [hm]) (by rw [hn]; exact id) fun _ hp _ => hn ▸ hp

theorem State.watched_later {s u v : State} {i : Nat} (h : s.watched u i)
    (hk : ∀ P : NoticeUnit → Prop, KeptByPosts P → P u.notices → P v.notices) : s.watched v i :=
  fun k t ht hw => told_of_kept hk (h k t ht hw)

theorem State.watched_of_notices {s u v : State} {i : Nat} (h : s.watched u i) (hn : v.notices = u.notices) :
    s.watched v i :=
  State.watched_later h fun _ _ hp => hn ▸ hp

theorem State.watched_of_map {s r u : State} {i : Nat} (h : r.watched u i) (hm : r.map = s.map) : s.watched u i := by
  unfold State.watched State.tube at *
  rw [hm] at h
  exact h

/-! ## Retirement in list order (R155, R156, R157) -/

theorem State.judgePool_postsOnly (s : State) : s.postsOnly s.judgePool [.pool] := by
  intro m hm
  unfold State.judgePool at hm
  dsimp only at hm
  split at hm
  · exact (NoticeUnit.post_enters hm).imp_right List.mem_singleton.mpr
  · split at hm <;> exact .inl hm

/-- What a retirement does to the pool's warning and the notices (R155). -/
theorem State.recycle_warning (s : State) (n : Nat) :
    s.postsOnly (s.recycle n) [.pool] ∧
    (s.recycle n).store.warnArmed = decide (s.map.params.poolLevel < (s.recycle n).store.free.count) ∧
    (s.store.warnArmed = true → (s.recycle n).store.warnArmed = false → (s.recycle n).notices.told .pool 0) := by
  unfold State.recycle
  dsimp only
  refine ⟨State.judgePool_postsOnly _, (State.judgePool_armed _).trans ?_,
    fun ha hd => State.judgePool_told _ (by exact ha) hd⟩
  rw [State.judgePool_frame]

theorem State.retire_unused {s : State} {n : Nat} (h : s.store.entry n = none) : s.retire n = s := by
  unfold State.retire
  rw [h]

/-- The retirement of an entry in use, by its last steps behind the freed seat. -/
theorem State.retire_used {s : State} {n : Nat} {e : Entry} (h : s.store.entry n = some e) :
    ∃ v : Four Seat, s.retire n = ({ s with seats := v } : State).recycle n := by
  unfold State.retire
  rw [h]
  dsimp only
  cases e.holder with
  | some k => exact ⟨_, rfl⟩
  | none => exact ⟨s.seats, rfl⟩

theorem State.retire_warning {s : State} {n : Nat} {e : Entry} (h : s.store.entry n = some e) :
    s.postsOnly (s.retire n) [.pool] ∧
    (s.retire n).store.warnArmed = decide (s.map.params.poolLevel < (s.retire n).store.free.count) ∧
    (s.store.warnArmed = true → (s.retire n).store.warnArmed = false → (s.retire n).notices.told .pool 0) := by
  obtain ⟨v, hv⟩ := State.retire_used h
  rw [hv]
  exact State.recycle_warning _ n

theorem State.retire_postsOnly (s : State) (n : Nat) : s.postsOnly (s.retire n) [.pool] := by
  cases h : s.store.entry n with
  | none => rw [State.retire_unused h]; exact fun _ => .inl
  | some e => exact (State.retire_warning h).1

theorem State.retireList_postsOnly (l : List Nat) (s : State) : s.postsOnly (l.foldl State.retire s) [.pool] := by
  induction l generalizing s with
  | nil => exact fun _ => .inl
  | cons n t ih => exact State.postsOnly_trans (s.retire_postsOnly n) (ih (s.retire n))

theorem State.retire_armed {s : State} {n : Nat} (h : s.store.entry n ≠ none ∨
      s.store.warnArmed = decide (s.map.params.poolLevel < s.store.free.count)) :
    (s.retire n).store.warnArmed = decide ((s.retire n).map.params.poolLevel < (s.retire n).store.free.count) := by
  cases hn : s.store.entry n with
  | none => rw [State.retire_unused hn]; exact h.resolve_left (not_not.mpr hn)
  | some e => exact (State.retire_warning hn).2.1.trans (by rw [State.retire_frame])

theorem State.retireList_armed (l : List Nat) {s : State} (h : (∃ n ∈ l, s.store.entry n ≠ none) ∨
      s.store.warnArmed = decide (s.map.params.poolLevel < s.store.free.count)) :
    (l.foldl State.retire s).store.warnArmed =
      decide (s.map.params.poolLevel < (l.foldl State.retire s).store.free.count) := by
  induction l generalizing s with
  | nil => exact h.resolve_left (by simp)
  | cons n t ih =>
    have hp : (s.retire n).map.params = s.map.params := by rw [State.retire_frame]
    rw [List.foldl_cons, ← hp]
    refine ih ?_
    by_cases hn : s.store.entry n = none
    · rw [State.retire_unused hn]
      exact h.imp_left fun ⟨k, hk, he⟩ => ⟨k, (List.mem_cons.mp hk).resolve_left (by rintro rfl; exact he hn), he⟩
    · exact .inr (State.retire_armed (.inl hn))

theorem State.retireList_told (l : List Nat) {s : State} (ha : s.store.warnArmed = true)
    (hd : (l.foldl State.retire s).store.warnArmed = false) : (l.foldl State.retire s).notices.told .pool 0 := by
  induction l generalizing s with
  | nil => exact absurd (ha.symm.trans hd) (by decide)
  | cons n t ih =>
    cases hn : s.store.entry n with
    | none => rw [List.foldl_cons, State.retire_unused hn] at hd ⊢; exact ih ha hd
    | some e =>
      cases hr : (s.retire n).store.warnArmed with
      | true => exact ih hr hd
      | false =>
        exact told_of_kept (fun _ hP => State.retireList_notices hP t (s.retire n)) ((State.retire_warning hn).2.2 ha hr)

theorem State.retireList_free {l : List Nat} {s : State} (hnd : l.Nodup) (hu : ∀ n ∈ l, s.store.entry n ≠ none) :
    (l.foldl State.retire s).store.free.toList = s.store.free.toList ++ l := by
  induction l generalizing s with
  | nil => simp
  | cons n t ih =>
    obtain ⟨hnt, hnd⟩ := List.nodup_cons.mp hnd
    obtain ⟨e, he⟩ := Option.ne_none_iff_exists'.mp (hu n List.mem_cons_self)
    have hkeep : ∀ k ∈ t, (s.retire n).store.entry k ≠ none := fun k hk => by
      have hne : n ≠ k := by rintro rfl; exact hnt hk
      unfold Store.entry
      rw [(State.retire_store s n e he).1 k, if_neg hne]
      exact hu k (List.mem_cons_of_mem n hk)
    rw [List.foldl_cons, ih hnd hkeep, (State.retire_store s n e he).2, List.append_assoc]
    rfl

/-- What the retirement of a whole entry list leaves (R155, R156), from `s` to `u`. -/
structure State.Retired (s u : State) (l : List Nat) : Prop where
  gone : ∀ n ∈ l, u.store.entry n = none
  kept : ∀ n, n ∉ l → u.store.slot n = s.store.slot n
  free : l.Nodup → (∀ n ∈ l, s.store.entry n ≠ none) → u.store.free.toList = s.store.free.toList ++ l
  armed : (∃ n ∈ l, s.store.entry n ≠ none) → u.store.warnArmed = decide (s.map.params.poolLevel < u.store.free.count)
  told : s.store.warnArmed = true → u.store.warnArmed = false → u.notices.told .pool 0

theorem State.retireList_retired (l : List Nat) (s : State) : s.Retired (l.foldl State.retire s) l where
  gone := (State.retireList_spec l s).1
  kept := (State.retireList_spec l s).2.1
  free := State.retireList_free
  armed h := State.retireList_armed l (.inl h)
  told := State.retireList_told l

/-- The rest of a step that leaves the store alone does not touch what a retirement left. -/
theorem State.Retired.later {s u v : State} {l : List Nat} (h : s.Retired u l) (hs : v.store = u.store)
    (hk : ∀ P : NoticeUnit → Prop, KeptByPosts P → P u.notices → P v.notices) : s.Retired v l where
  gone := hs ▸ h.gone
  kept := hs ▸ h.kept
  free := hs ▸ h.free
  armed := hs ▸ h.armed
  told ha hd := told_of_kept hk (h.told ha (hs ▸ hd))

/-! ## CLEAR_LAYOUT_TUBE (R6) -/

theorem Port.executing_with {p : Port} (h : p.mode = .executing) (w : Work) :
    ({ p with mode := .executing, work := some w } : Port) = { p with work := some w } := by
  rw [← h]

/-- The part without its last tube, before the completion check. -/
def State.withoutLast (s : State) (l : List Tube) (t : Tube) : State :=
  { s with
    map := { s.map with
      directory := sparseErase s.map.directory t.pos.cell, tubes := l, census := s.map.census.leave t }
    store := (t.entries.foldl State.retire s).store
    seats := (t.entries.foldl State.retire s).seats
    notices := (t.entries.foldl State.retire s).notices }

theorem State.removeLast_eq {s : State} {l : List Tube} {t : Tube} (h : s.map.tubes = l ++ [t]) :
    s.removeLast = (s.withoutLast l t).completionAfter s.map.census := by
  unfold State.removeLast
  rw [h, List.getLast?_concat]
  dsimp only
  rw [State.retireList_frame]
  dsimp only
  rw [h, List.dropLast_concat]
  rfl

theorem State.withoutLast_completes (s : State) (l : List Tube) (t : Tube) :
    s.completes ((s.withoutLast l t).completionAfter s.map.census) :=
  State.completionAfter_completes rfl rfl (State.postsOnly_quiet (State.retireList_postsOnly t.entries s) (by decide))

theorem exec_clearLayoutTube {s : State} {removed : Nat} {l : List Tube} {t : Tube} (hh : s.held = false)
    (hm : s.port.mode = .executing) (hw : s.port.work = some (.clearLayout removed)) (ht : s.map.tubes = l ++ [t]) :
    exec .clearLayoutTube s =
      .next (((s.withoutLast l t).completionAfter s.map.census).begin (.clearLayout (removed + 1))) := by
  have hact : s.clearLayoutTube = s.removeLast.begin (.clearLayout (removed + 1)) := by
    unfold State.clearLayoutTube
    rw [hm, hw, ht]
    simp
  exact congrArg _ ((State.whenRunning_running hh _).trans (by rw [hact, State.removeLast_eq ht]))

/-- Settles O14, by the retirement of the last tube's entries and the completion check behind it. -/
theorem clearLayoutRemovesLast : Obligations.ClearLayoutRemovesLast := by
  unfold Obligations.ClearLayoutRemovesLast
  intro s removed l t hh hm hw ht
  have hmap : ((s.withoutLast l t).completionAfter s.map.census).map.directory =
      sparseErase s.map.directory t.pos.cell := by rw [State.completionAfter_frame]; rfl
  have hret : s.Retired (((s.withoutLast l t).completionAfter s.map.census).begin (.clearLayout (removed + 1))) t.entries :=
    (State.retireList_retired t.entries s).later (by rw [State.begin_store, State.completionAfter_frame]; rfl)
      fun _ hP hn => State.completionAfter_notices hP _ _ hn
  refine ⟨_, exec_clearLayoutTube hh hm hw ht, ?tubes, ?cell, ?cells, ?census, hret.gone, hret.kept, hret.free, hret.armed,
    hret.told, ?completes, ?port, ?frame⟩
  case tubes => rw [State.begin_map, State.completionAfter_frame]; rfl
  case cell =>
    unfold TubeMap.at
    rw [State.begin_map, hmap, sparseGet_erase, if_pos rfl, ite_self]
  case cells =>
    intro p hp hne
    unfold TubeMap.at
    rw [State.begin_map, hmap, sparseGet_erase, if_neg (Ne.symm hne)]
  case census => rw [State.begin_map, State.completionAfter_frame]; rfl
  case completes => exact State.completes_of_same (s.withoutLast_completes l t) rfl rfl
  case port =>
    rw [State.begin_port, State.completionAfter_frame]
    exact Port.executing_with hm _
  case frame =>
    rw [State.completionAfter_frame]
    rfl

/-! ## ROLLOVER_TUBE (R14) -/

theorem depthMax_eq_none (a b : Option Nat) : depthMax a b = none ↔ a = none ∧ b = none := by
  cases a <;> cases b <;> simp [depthMax]

theorem depthMax_eq_some (a b : Option Nat) (d : Nat) :
    depthMax a b = some d ↔ (a = some d ∨ b = some d) ∧ ∀ x, a = some x ∨ b = some x → x ≤ d := by
  cases a with
  | none => cases b <;> simp [depthMax]; exact fun h => h.le
  | some x =>
    cases b with
    | none => simp [depthMax]; exact fun h => h.le
    | some y =>
      simp only [depthMax, Option.some.injEq]
      constructor
      · rintro rfl
        exact ⟨by omega, by omega⟩
      · rintro ⟨h, hall⟩
        have := hall x (.inl rfl)
        have := hall y (.inr rfl)
        omega

theorem Tube.rolled_plugged {t : Tube} (h : t.state = .plugged) :
    t.rolled = { t with history := depthMax t.history t.worstFinal, entries := [], worstFinal := none } := if_pos h

theorem Tube.rolled_other {t : Tube} (h : t.state ≠ .plugged) :
    t.rolled =
      { t with history := depthMax t.history t.worstFinal, entries := [], worstFinal := none, state := .untested,
               passes := 0, attempts := 0, primaryMark := false, secondaryMark := false, truncated := false,
               planned := false } := if_neg h

theorem Tube.rolled_pos (t : Tube) : t.rolled.pos = t.pos := by
  by_cases h : t.state = .plugged
  · rw [Tube.rolled_plugged h]
  · rw [Tube.rolled_other h]

theorem Tube.rolled_quiet {t : Tube} (h : t.state = .plugged ∨ t.state = .untested) : t.rolled.state = t.state := by
  by_cases hp : t.state = .plugged
  · rw [Tube.rolled_plugged hp]
  · rw [Tube.rolled_other hp, h.resolve_left hp]

/-- The rollover of a tube before the watches of R40: its entries retired, its record changed. -/
def State.rolledTube (s : State) (i : Nat) (t : Tube) : State :=
  (t.entries.foldl State.retire s).changeTube i Tube.rolled

theorem State.rollover_eq {s : State} {i : Nat} {t : Tube} (h : s.tube i = some t) :
    s.rollover i = s.rolledTube i t ∨ s.rollover i = (s.rolledTube i t).postWatch t.pos := by
  unfold State.rollover
  rw [h]
  dsimp only
  split
  · exact .inr rfl
  · exact .inl rfl

theorem State.rollover_frame {s : State} {i : Nat} {t : Tube} (h : s.tube i = some t) :
    s.rollover i = { s.rolledTube i t with notices := (s.rollover i).notices } := by
  rcases State.rollover_eq h with hr | hr
  · rw [hr]
  · rw [hr, State.postWatch_frame]

theorem State.rollover_notices {s : State} {i : Nat} {t : Tube} (h : s.tube i = some t) {P : NoticeUnit → Prop}
    (hP : KeptByPosts P) (hn : P (s.rolledTube i t).notices) : P (s.rollover i).notices := by
  rcases State.rollover_eq h with hr | hr
  · rw [hr]; exact hn
  · rw [hr]; exact State.postWatch_notices hP _ _ hn

theorem State.rolledTube_tube (s : State) (i : Nat) (t : Tube) (j : Nat) :
    (s.rolledTube i t).tube j = if i = j then (s.tube j).map Tube.rolled else s.tube j := by
  unfold State.rolledTube
  rw [State.changeTube_tube]
  unfold State.tube
  rw [State.retireList_frame]

theorem State.rollover_completes {s : State} {i : Nat} {t : Tube} (h : s.tube i = some t) :
    s.completes (s.rollover i) := by
  have hc : s.completes (s.rolledTube i t) :=
    State.completes_earlier (State.changeTube_completes _ i Tube.rolled) (by rw [State.retireList_frame])
      (by rw [State.retireList_frame]; exact ⟨rfl, rfl⟩) (by rw [State.retireList_frame])
      (State.postsOnly_quiet (State.retireList_postsOnly t.entries s) (by decide))
  rcases State.rollover_eq h with hr | hr
  · rw [hr]; exact hc
  · rw [hr]; exact State.completes_postWatch hc _

theorem State.rollover_retired {s : State} {i : Nat} {t : Tube} (h : s.tube i = some t) :
    s.Retired (s.rollover i) t.entries :=
  (State.retireList_retired t.entries s).later
    (by rw [State.rollover_frame h]; unfold State.rolledTube; rw [State.changeTube_frame])
    fun _ hP hn => State.rollover_notices h hP (State.changeTube_notices hP _ _ _ hn)

/-- A tube that becomes UNTESTED gives the signal, and its watches post (R37, R40). -/
theorem State.rollover_untested {s : State} {i : Nat} {t : Tube} (h : s.tube i = some t) (hp : t.state ≠ .plugged)
    (hu : t.state ≠ .untested) : (∀ n, s.signalledChannel (s.rollover i) n) ∧ s.watched (s.rollover i) i := by
  have hr := State.retireList_frame t.entries s
  have ht : (t.entries.foldl State.retire s).tube i = some t := by unfold State.tube; rw [hr]; exact h
  have hmoved : t.state ≠ t.rolled.state := by rw [Tube.rolled_other hp]; exact hu
  obtain ⟨hchan, hseek, hwait⟩ := State.changeTube_signals _ i Tube.rolled t ht hmoved (by rw [Tube.rolled_other hp]; rfl)
  constructor
  · refine State.signalledChannel_of (fun n => ?_) ?_ (fun n => ?_)
    · rw [State.rollover_frame h]; refine (hchan n).trans ?_; unfold State.chan; rw [hr]
    · rw [State.rollover_frame h]; refine hseek.trans ?_; rw [hr]
    · rw [State.rollover_frame h]; refine (hwait n).trans ?_; unfold State.chan; rw [hr]
  · exact State.watched_later (State.watched_of_map (State.changeTube_watched _ i Tube.rolled t ht hmoved t.rolled_pos)
      (by rw [hr])) fun _ hP hn => State.rollover_notices h hP hn

theorem State.rollover_quiet {s : State} {i : Nat} {t : Tube} (h : s.tube i = some t)
    (hq : t.state = .plugged ∨ t.state = .untested) :
    (s.rollover i).chans = s.chans ∧ (s.rollover i).walker = s.walker := by
  have hr := State.retireList_frame t.entries s
  have hs : ∀ x, (t.entries.foldl State.retire s).tube i = some x →
      x.state = x.rolled.state ∨ x.rolled.state.claimable = false := by
    intro x hx
    have hxt : s.tube i = some x := by unfold State.tube at hx; rw [hr] at hx; exact hx
    exact .inl (by rw [Option.some.inj (hxt.symm.trans h), Tube.rolled_quiet hq])
  obtain ⟨hc, hw⟩ := State.changeTube_quiet _ i Tube.rolled hs
  rw [State.rollover_frame h]
  exact ⟨hc.trans (by rw [hr]), hw.trans (by rw [hr])⟩

theorem exec_rolloverTube {s : State} {next : Nat} {t : Tube} (hh : s.held = false) (hm : s.port.mode = .executing)
    (ht : s.tube next = some t) :
    (s.port.work = some (.newCampaign next) →
      exec .rolloverTube s = .next ((s.rollover next).begin (.newCampaign (next + 1)))) ∧
    (s.port.work = some (.prepareLayout next) →
      exec .rolloverTube s = .next ((s.rollover next).begin (.prepareLayout (next + 1)))) := by
  have hlt : next < s.map.tubes.length := (List.getElem?_eq_some_iff.mp ht).1
  have hact : exec .rolloverTube s = .next s.rolloverTube := congrArg _ (State.whenRunning_running hh _)
  rw [hact]
  unfold State.rolloverTube
  rw [hm]
  exact ⟨fun hw => by rw [hw]; exact congrArg _ (if_pos hlt), fun hw => by rw [hw]; exact congrArg _ (if_pos hlt)⟩

/-- Settles O18, by the retirement of the tube's entries and the change of its record behind it. -/
theorem rolloverTube : Obligations.RolloverTube := by
  unfold Obligations.RolloverTube
  refine ⟨fun a b => ⟨depthMax_eq_none a b, depthMax_eq_some a b⟩, fun s next t hh hm hwork ht => ?_⟩
  obtain ⟨w, hexec, hnew, hprepare⟩ : ∃ w, exec .rolloverTube s = .next ((s.rollover next).begin w) ∧
      (s.port.work = some (.newCampaign next) → w = .newCampaign (next + 1)) ∧
      (s.port.work = some (.prepareLayout next) → w = .prepareLayout (next + 1)) := by
    rcases hwork with hw | hw
    · exact ⟨.newCampaign (next + 1), (exec_rolloverTube hh hm ht).1 hw, fun _ => rfl, fun h => absurd (hw.symm.trans h) nofun⟩
    · exact ⟨.prepareLayout (next + 1), (exec_rolloverTube hh hm ht).2 hw, fun h => absurd (hw.symm.trans h) nofun, fun _ => rfl⟩
  have hret : s.Retired ((s.rollover next).begin w) t.entries := (State.rollover_retired ht).later rfl fun _ _ h => h
  have htube : ∀ j, ((s.rollover next).begin w).tube j = if next = j then (s.tube j).map Tube.rolled else s.tube j := by
    intro j
    rw [← State.rolledTube_tube s next t j, State.rollover_frame ht]
    rfl
  have hport : ((s.rollover next).begin w).port = { s.port with mode := .executing, work := some w } := by
    rw [State.begin_port, State.rollover_frame ht]
    unfold State.rolledTube
    rw [State.changeTube_frame, State.retireList_frame]
  refine ⟨_, hexec, fun hp => ?_, fun hp => ?_, fun i hi => ?_, hret.gone, hret.kept, hret.free, hret.armed, hret.told,
    State.completes_of_same (State.rollover_completes ht) rfl rfl, fun hp hu => (State.rollover_untested ht hp hu).1,
    State.rollover_quiet ht, fun hp hu => State.watched_of_notices (State.rollover_untested ht hp hu).2 rfl,
    fun h => by rw [hnew h]; rfl, fun h => by rw [hprepare h]; rfl, ?_⟩
  · rw [htube, if_pos rfl, ht, Option.map_some, Tube.rolled_other hp]
  · rw [htube, if_pos rfl, ht, Option.map_some, Tube.rolled_plugged hp]
  · rw [htube, if_neg (Ne.symm hi)]
  · rw [hport, Port.executing_with hm, State.rollover_frame ht]
    unfold State.rolledTube
    rw [State.changeTube_frame, State.retireList_frame]
    unfold State.begin
    dsimp only
    rw [Port.executing_with hm]

end Sys2Proof.Machine
end

section
/-! The plan of a region, tube by tube (O19). -/

namespace Sys2Proof.Machine

/-! ## The next tube of a rectangle (R16) -/

theorem sparseGet_below {d : Option Nat} {l : List (Nat × Option Nat)} {c : Nat} (h : ∀ b ∈ l, c < b.1) :
    sparseGet d l c = d := by
  induction l with
  | nil => rfl
  | cons a t ih =>
    rw [show sparseGet d (a :: t) c = if a.1 = c then a.2 else sparseGet d t c from rfl,
      if_neg (Nat.ne_of_gt (h a List.mem_cons_self))]
    exact ih fun b hb => h b (List.mem_cons_of_mem a hb)

/-- The cells of a rectangle from `next` on (R16). -/
def Rect.from (r : Rect) (next cell : Nat) : Bool := decide (next ≤ cell) && r.holds (cellPos cell)

/-- The listed cell that `nextInRegion` finds first, over any part of the directory. -/
def firstIn (r : Rect) (next : Nat) (l : List (Nat × Option Nat)) : Option (Nat × Nat) :=
  l.findSome? (fun kv => kv.2.bind (fun i => if r.from next kv.1 then some (kv.1, i) else none))

theorem TubeMap.nextInRegion_eq (m : TubeMap) (r : Rect) (next : Nat) :
    m.nextInRegion r next = firstIn r next m.directory := by
  unfold TubeMap.nextInRegion firstIn
  congr 1
  funext kv
  cases kv.2 <;> rfl

theorem firstIn_cons_hit {r : Rect} {next k j : Nat} (h : r.from next k = true) (l : List (Nat × Option Nat)) :
    firstIn r next ((k, some j) :: l) = some (k, j) := by
  simp [firstIn, h]

theorem firstIn_cons_miss {r : Rect} {next k j : Nat} (h : r.from next k = false) (l : List (Nat × Option Nat)) :
    firstIn r next ((k, some j) :: l) = firstIn r next l := by
  simp [firstIn, h]

/-- A cell holds index `i` and is the least of the rectangle, from `next` on, that holds a tube. -/
def LeastIn (r : Rect) (next : Nat) (l : List (Nat × Option Nat)) (cell i : Nat) : Prop :=
  r.from next cell = true ∧ sparseGet none l cell = some i ∧
    ∀ c, c < cell → r.from next c = true → sparseGet none l c = none

theorem firstIn_spec {r : Rect} {next : Nat} {l : List (Nat × Option Nat)} (hl : sparseWf none l = true) :
    (firstIn r next l = none ↔ ∀ c, r.from next c = true → sparseGet none l c = none) ∧
    ∀ cell i, firstIn r next l = some (cell, i) ↔ LeastIn r next l cell i := by
  induction l with
  | nil => exact ⟨⟨fun _ _ _ => rfl, fun _ => rfl⟩, fun cell i => ⟨nofun, fun h => nomatch h.2.1⟩⟩
  | cons a t ih =>
    obtain ⟨k, v⟩ := a
    obtain ⟨hv, -, ht⟩ := (sparseWf_cons none (k, v) t).mp hl
    have habove := sparseWf_above none (k, v) t hl
    obtain ⟨j, rfl⟩ := Option.ne_none_iff_exists'.mp hv
    obtain ⟨hnone, hsome⟩ := ih ht
    have hget : ∀ c, sparseGet none ((k, some j) :: t) c = if k = c then some j else sparseGet none t c := fun _ => rfl
    cases hk : r.from next k with
    | true =>
      rw [firstIn_cons_hit hk]
      refine ⟨⟨nofun, fun h => ?_⟩, fun cell i => ⟨fun h => ?_, fun ⟨hc, hat, hleast⟩ => ?_⟩⟩
      · exact absurd (h k hk) (by rw [hget, if_pos rfl]; nofun)
      · obtain ⟨rfl, rfl⟩ := Prod.mk.inj (Option.some.inj h)
        refine ⟨hk, by rw [hget, if_pos rfl], fun c hc _ => ?_⟩
        rw [hget, if_neg (Nat.ne_of_gt hc)]
        exact sparseGet_below fun b hb => Nat.lt_trans hc (habove b hb)
      · rcases Nat.lt_trichotomy cell k with hlt | rfl | hgt
        · rw [hget, if_neg (Nat.ne_of_gt hlt), sparseGet_below fun b hb => Nat.lt_trans hlt (habove b hb)] at hat
          cases hat
        · rw [hget, if_pos rfl] at hat
          rw [Option.some.inj hat]
        · exact absurd (hleast k hgt hk) (by rw [hget, if_pos rfl]; nofun)
    | false =>
      have hsame : ∀ c, r.from next c = true → sparseGet none ((k, some j) :: t) c = sparseGet none t c := by
        intro c hc
        rw [hget, if_neg]
        rintro rfl
        exact absurd (hc.symm.trans hk) nofun
      rw [firstIn_cons_miss hk, hnone]
      refine ⟨⟨fun h c hc => (hsame c hc).trans (h c hc), fun h c hc => (hsame c hc).symm.trans (h c hc)⟩,
        fun cell i => (hsome cell i).trans ⟨fun ⟨hc, hat, hleast⟩ => ?_, fun ⟨hc, hat, hleast⟩ => ?_⟩⟩
      · exact ⟨hc, (hsame cell hc).trans hat, fun c h1 h2 => (hsame c h2).trans (hleast c h1 h2)⟩
      · exact ⟨hc, (hsame cell hc).symm.trans hat, fun c h1 h2 => (hsame c h2).symm.trans (hleast c h1 h2)⟩

theorem TubeMap.at_cellPos (m : TubeMap) {r : Rect} {next c : Nat} (hr : r.rowHi ≤ 255) (h : r.from next c = true) :
    m.at (cellPos c) = sparseGet none m.directory c := by
  have hrow : c / 256 ≤ r.rowHi := by
    simp only [Rect.from, Rect.holds, Bool.and_eq_true, decide_eq_true_eq] at h
    exact h.2.1.1.2
  have hgrid : (cellPos c).inGrid = true := by
    simp only [Pos.inGrid, Bool.and_eq_true, decide_eq_true_eq]
    exact ⟨show c / 256 < 256 by omega, Nat.mod_lt c (by decide)⟩
  have hcell : (cellPos c).cell = c := Nat.div_add_mod c 256
  unfold TubeMap.at
  rw [if_pos hgrid, hcell]

/-! ## PLAN_REGION_TUBE (R16) -/

theorem exec_planRegionTube {s : State} {r : Rect} {a : PlanAction} {next changed cell i : Nat} {t : Tube}
    (hh : s.held = false) (hm : s.port.mode = .executing) (hw : s.port.work = some (.planRegion r a next changed))
    (hn : s.map.nextInRegion r next = some (cell, i)) (ht : s.tube i = some t) :
    exec .planRegionTube s = .next
      (if a.changes t then (s.planTube a i).begin (.planRegion r a (cell + 1) (changed + 1))
       else s.begin (.planRegion r a (cell + 1) changed)) := by
  have hact : exec .planRegionTube s = .next s.planRegionTube := congrArg _ (State.whenRunning_running hh _)
  rw [hact]
  unfold State.planRegionTube
  rw [hm, hw]
  dsimp only
  rw [hn]
  dsimp only
  rw [ht]

/-- A tube's planned flag written (R16): its state is not touched, so no signal comes of the record. -/
def State.writePlanned (s : State) (i : Nat) (p : Bool) : State := s.changeTube i (fun t => { t with planned := p })

theorem State.writePlanned_quiet (s : State) (i : Nat) (p : Bool) :
    (s.writePlanned i p).chans = s.chans ∧ (s.writePlanned i p).walker = s.walker :=
  State.changeTube_quiet s i _ fun _ _ => .inl rfl

theorem State.planTube_set (s : State) (i : Nat) : s.planTube .set i = (s.writePlanned i true).candidatesChanged := rfl

theorem State.candidatesChanged_same (s : State) :
    s.candidatesChanged.map = s.map ∧ s.candidatesChanged.notices = s.notices ∧ s.candidatesChanged.port = s.port := by
  rw [State.candidatesChanged_frame]
  exact ⟨rfl, rfl, rfl⟩

theorem State.planTube_map (s : State) (a : PlanAction) (i : Nat) :
    (s.planTube a i).map = (s.writePlanned i (a == .set)).map ∧
    (s.planTube a i).notices = (s.writePlanned i (a == .set)).notices := by
  cases a with
  | set => exact ⟨(State.candidatesChanged_same _).1, (State.candidatesChanged_same _).2.1⟩
  | clear => exact ⟨rfl, rfl⟩

theorem State.planTube_tube (s : State) (a : PlanAction) (i j : Nat) : (s.planTube a i).tube j =
    if i = j then (s.tube j).map (fun t => { t with planned := a == .set }) else s.tube j := by
  have h := State.changeTube_tube s i j (fun t => { t with planned := a == .set })
  unfold State.tube at h ⊢
  rw [(s.planTube_map a i).1]
  exact h

theorem State.planTube_completes (s : State) (a : PlanAction) (i : Nat) : s.completes (s.planTube a i) :=
  State.completes_of_same (State.changeTube_completes s i _) (s.planTube_map a i).1 (s.planTube_map a i).2

theorem State.planTube_signals (s : State) (i : Nat) (n : Fin 8) : s.signalledChannel (s.planTube .set i) n := by
  obtain ⟨hc, hw⟩ := s.writePlanned_quiet i true
  have h := State.candidatesChanged_signalled (s.writePlanned i true) n
  unfold State.signalledChannel State.chan at h ⊢
  rw [hc, hw] at h
  exact h

theorem State.planTube_frame (s : State) (a : PlanAction) (i : Nat) :
    s.planTube a i = { s with
      map := { s.map with
        tubes := (s.planTube a i).map.tubes, census := (s.planTube a i).map.census, armed := (s.planTube a i).map.armed }
      notices := (s.planTube a i).notices, chans := (s.planTube a i).chans
      walker := { s.walker with waiting := (s.planTube a i).walker.waiting, seek := (s.planTube a i).walker.seek } } := by
  cases a with
  | set =>
    rw [State.planTube_set, State.candidatesChanged_frame]
    unfold State.writePlanned
    rw [State.changeTube_frame]
  | clear => exact State.changeTube_frame s i _

/-- Settles O19: the visit's step by what it does to the tube, the next tube by the order of the directory. -/
theorem planRegionTube : Obligations.PlanRegionTube := by
  unfold Obligations.PlanRegionTube
  refine ⟨fun s r a next changed cell i t hh hm hw hn ht => ⟨_, exec_planRegionTube hh hm hw hn ht, ?_⟩,
    fun m r next hwf hr => ?_⟩
  · cases hc : a.changes t with
    | true =>
      have hport : ((s.planTube a i).begin (.planRegion r a (cell + 1) (changed + 1))).port =
          { s.port with work := some (.planRegion r a (cell + 1) (changed + 1)) } := by
        rw [State.begin_port, State.planTube_frame]
        exact Port.executing_with hm _
      rw [if_pos rfl]
      refine ⟨?set, ?clear, ?pass, fun j hj => ?_, State.completes_of_same (s.planTube_completes a i) rfl rfl, ?frame⟩
      case set =>
        rintro rfl - -
        exact ⟨(s.planTube_tube .set i i).trans (by rw [if_pos rfl, ht]; rfl), s.planTube_signals i, rfl⟩
      case clear =>
        rintro rfl -
        exact ⟨(s.planTube_tube .clear i i).trans (by rw [if_pos rfl, ht]; rfl), (s.writePlanned_quiet i false).1,
          (s.writePlanned_quiet i false).2, rfl⟩
      case pass =>
        rintro (⟨rfl, h⟩ | ⟨rfl, h⟩)
        · simp only [PlanAction.changes, Bool.and_eq_true, decide_eq_true_eq, Bool.not_eq_true'] at hc
          exact absurd h (not_or.mpr ⟨hc.1, by rw [hc.2]; decide⟩)
        · exact absurd (hc.symm.trans h) nofun
      case frame =>
        rw [hport, State.planTube_frame]
        unfold State.begin
        dsimp only
        rw [Port.executing_with hm]
      · exact (s.planTube_tube a i j).trans (if_neg (Ne.symm hj))
    | false =>
      have hbegin : s.begin (.planRegion r a (cell + 1) changed) =
          { s with port := { s.port with work := some (.planRegion r a (cell + 1) changed) } } := by
        unfold State.begin
        rw [Port.executing_with hm]
      rw [if_neg nofun, hbegin]
      refine ⟨?_, ?_, fun _ => rfl, fun _ _ => rfl, State.completes_same ⟨rfl, rfl⟩ rfl fun _ h _ => h, rfl⟩
      · rintro rfl hs hp
        exact absurd hc (by simp [PlanAction.changes, hs, hp])
      · rintro rfl hp
        exact absurd (hp.symm.trans hc) nofun
  · obtain ⟨hnone, hsome⟩ := firstIn_spec (r := r) (next := next) hwf
    have hfrom : ∀ c, r.from next c = true ↔ next ≤ c ∧ r.holds { row := c / 256, col := c % 256 } = true := fun c => by
      simp only [Rect.from, cellPos, Bool.and_eq_true, decide_eq_true_eq]
    have hat : ∀ c, r.from next c = true → m.at { row := c / 256, col := c % 256 } = sparseGet none m.directory c :=
      fun c => m.at_cellPos hr
    rw [TubeMap.nextInRegion_eq, hnone]
    refine ⟨⟨fun h c h1 h2 => ?_, fun h c hc => ?_⟩, fun cell i => (hsome cell i).trans ?_⟩
    · have hc := (hfrom c).mpr ⟨h1, h2⟩
      exact (hat c hc).trans (h c hc)
    · exact (hat c hc).symm.trans (h c ((hfrom c).mp hc).1 ((hfrom c).mp hc).2)
    · constructor
      · rintro ⟨hc, hg, hleast⟩
        refine ⟨((hfrom cell).mp hc).1, ((hfrom cell).mp hc).2, (hat cell hc).trans hg, fun c h1 h2 h3 => ?_⟩
        have hc' := (hfrom c).mpr ⟨h1, h3⟩
        exact (hat c hc').trans (hleast c h2 hc')
      · rintro ⟨h1, h2, hg, hleast⟩
        have hc := (hfrom cell).mpr ⟨h1, h2⟩
        refine ⟨hc, (hat cell hc).symm.trans hg, fun c h3 h4 => (hat c h4).symm.trans ?_⟩
        exact hleast c ((hfrom c).mp h4).1 h3 ((hfrom c).mp h4).2

end Sys2Proof.Machine
end

section
/-! CLOSE_CAMPAIGN: the seats freed one after another (O17). -/

namespace Sys2Proof.Machine

/-! ## Steps that leave the completion check alone (R19) -/

/-- From `s` to `u` the two counts of the completion check and its flag stand, and no CAMPAIGN_COMPLETE is posted. -/
def State.completionQuiet (s u : State) : Prop :=
  u.map.census.planned = s.map.census.planned ∧ u.map.census.plannedOpen = s.map.census.plannedOpen ∧
    u.map.armed = s.map.armed ∧ ∀ m ∈ u.notices.pending, m.cls = .campaignComplete → m ∈ s.notices.pending

theorem State.completionQuiet_trans {s u v : State} (h : s.completionQuiet u) (h' : u.completionQuiet v) :
    s.completionQuiet v := by
  obtain ⟨h1, h2, h3, h4⟩ := h
  obtain ⟨k1, k2, k3, k4⟩ := h'
  exact ⟨k1.trans h1, k2.trans h2, k3.trans h3, fun m hm hc => h4 m (k4 m hm hc) hc⟩

theorem State.completionQuiet_watchTube (s : State) (i : Nat) : s.completionQuiet (s.watchTube i) := by
  unfold State.watchTube
  split
  · exact ⟨rfl, rfl, rfl, fun _ h _ => h⟩
  · refine ⟨by rw [State.postWatch_frame], by rw [State.postWatch_frame], by rw [State.postWatch_frame], fun m hm hc => ?_⟩
    exact (State.postWatch_enters hm).elim id fun hw => absurd (hc.symm.trans hw) (by decide)

/-- An evaluation that does not move its tube across the terminal states. -/
theorem State.completionQuiet_evaluate {s : State} {i : Nat} {t : Tube} (hc : s.censusTrue) (ht : s.tube i = some t)
    (ho : (t.evaluated s.map.params.plugLimit s.store).isOpen = t.isOpen) : s.completionQuiet (s.evaluate i) := by
  have hcounts : t.planned.toNat ≤ s.map.census.planned ∧ t.isOpen.toNat ≤ s.map.census.plannedOpen := by
    rw [hc]; exact censusOf_counts (List.mem_of_getElem? ht)
  unfold State.evaluate
  rw [ht]
  dsimp only
  split
  · refine State.completionQuiet_trans (State.changeTube_kept s i _ t ht hcounts ?_ ?_)
      ⟨rfl, rfl, rfl, fun m hm hcl => (NoticeUnit.post_enters hm).resolve_right fun h => ?_⟩
    · rfl
    · exact ho
    · exact absurd (hcl.symm.trans h) (by decide)
  · refine State.changeTube_kept s i _ t ht hcounts ?_ ?_
    · rfl
    · exact ho

/-- An evaluation of no tube. -/
theorem State.evaluate_none {s : State} {i : Nat} (h : s.tube i = none) : s.evaluate i = s := by
  unfold State.evaluate
  rw [h]

theorem State.completionQuiet_changeStatus {s : State} {n : Nat} {e : Entry} {t : Tube} (hc : s.censusTrue)
    (ht : s.tube e.tube = some t)
    (ho : (t.evaluated s.map.params.plugLimit (s.store.setEntry n e)).isOpen = t.isOpen) :
    s.completionQuiet (s.changeStatus n e) :=
  State.completionQuiet_trans
    (State.completionQuiet_evaluate (s := { s with store := s.store.setEntry n e }) hc ht ho)
    (State.completionQuiet_watchTube _ _)

theorem State.completionQuiet_changeStatus_none {s : State} {n : Nat} {e : Entry} (ht : s.tube e.tube = none) :
    s.completionQuiet (s.changeStatus n e) := by
  unfold State.changeStatus
  rw [State.evaluate_none (s := { s with store := s.store.setEntry n e }) ht]
  exact State.completionQuiet_watchTube _ _

/-! ## The record an evaluation leaves -/

theorem Store.listed_congr {st st' : Store} {l : List Nat} (h : ∀ n ∈ l, st.entry n = st'.entry n) :
    st.listed l = st'.listed l :=
  List.filterMap_congr fun n hn => by rw [h n hn]

theorem Tube.evaluated_congr {t : Tube} {limit : Nat} {st st' : Store} (h : ∀ n ∈ t.entries, st.entry n = st'.entry n) :
    t.evaluated limit st = t.evaluated limit st' := by
  unfold Tube.evaluated
  rw [Store.listed_congr h]

theorem evaluationState_disputed {t : Tube} {limit : Nat} {l : List Entry} {e : Entry} (he : e ∈ l)
    (hd : e.status = .disputed ∨ e.status = .resolving) : evaluationState t limit l = .underReview :=
  if_pos (List.any_eq_true.mpr ⟨e, he, decide_eq_true hd⟩)

theorem Store.mem_listedEntries {st : Store} {l : List Nat} {n : Nat} {e : Entry} (hn : n ∈ l) (he : st.entry n = some e) :
    e ∈ (st.listed l).map Prod.snd :=
  List.mem_map.mpr ⟨(n, e), (Store.mem_listed st l (n, e)).mpr ⟨hn, he⟩, rfl⟩

/-- A tube with an entry in dispute stays on its side of the terminal states. -/
theorem Tube.evaluated_isOpen {t : Tube} {limit : Nat} {st : Store} {n : Nat} {e : Entry} (hn : n ∈ t.entries)
    (he : st.entry n = some e) (hd : e.status = .disputed ∨ e.status = .resolving) :
    (t.evaluated limit st).isOpen = t.isOpen := by
  unfold Tube.evaluated Tube.isOpen
  dsimp only
  rw [evaluationState_disputed (Store.mem_listedEntries hn he) hd]
  cases t.state <;> rfl

/-! ## A seat freed (R11, R173) -/

/-- What no evaluation touches of a tube and a freed seat needs: the entry list and the position. -/
def Tube.listAndPlace (t : Tube) : List Nat × Pos := (t.entries, t.pos)

/-- Seat `k` holds entry number `n` in `s`, which is `e`. -/
def State.seatHolds (s : State) (k : Fin 4) (n : Nat) (e : Entry) : Prop :=
  ∃ r : EntryRef, (s.seats.get k).held = some r ∧ r.number = n ∧ s.store.entry n = some e

/-- From `s` to `u` only tube records with census and flag, entries, seats and notices have changed. -/
def State.reviewsOnly (s u : State) : Prop :=
  u = { s with
    map := { s.map with tubes := u.map.tubes, census := u.map.census, armed := u.map.armed }
    store := u.store, seats := u.seats, notices := u.notices }

theorem State.reviewsOnly.trans {s u v : State} (h : s.reviewsOnly u) (h' : u.reviewsOnly v) : s.reviewsOnly v :=
  Eq.trans h' ((congrArg (fun x : State => { x with
    map := { x.map with tubes := v.map.tubes, census := v.map.census, armed := v.map.armed }
    store := v.store, seats := v.seats, notices := v.notices }) h).trans rfl)

theorem State.changeStatus_reviewsOnly (s : State) (n : Nat) (e : Entry) : s.reviewsOnly (s.changeStatus n e) := by
  unfold State.reviewsOnly
  conv_lhs => rw [State.changeStatus_frame, (s.changeStatus_quiet n e).1, (s.changeStatus_quiet n e).2]
  rw [show (s.changeStatus n e).store = s.store.setEntry n e by rw [State.changeStatus_frame],
    show (s.changeStatus n e).seats = s.seats by rw [State.changeStatus_frame]]

/-- Freeing the seats `ks` has led from `s` to `u`. -/
structure State.SeatsClosed (s u : State) (ks : List (Fin 4)) : Prop where
  frame : s.reviewsOnly u
  seat : ∀ k, u.seats.get k =
    if k ∈ ks ∧ (s.seats.get k).held ≠ none then { held := none, expiry := none } else s.seats.get k
  returned : ∀ k ∈ ks, ∀ n e, s.seatHolds k n e → u.store.entry n = some e.returned
  unheld : ∀ n, (∀ k ∈ ks, ∀ e, ¬ s.seatHolds k n e) → u.store.slot n = s.store.slot n
  free : u.store.free = s.store.free
  watched : ∀ k ∈ ks, ∀ n e, s.seatHolds k n e → s.watched u e.tube
  tube : ∀ i, (∀ k ∈ ks, ∀ n e, s.seatHolds k n e → e.tube ≠ i) → u.tube i = s.tube i
  record : ∀ i, (u.tube i).map Tube.listAndPlace = (s.tube i).map Tube.listAndPlace
  evaluated : ∀ k ∈ ks, ∀ n e t, s.seatHolds k n e → s.tube e.tube = some t →
    (∀ j ∈ ks, j ≠ k → ∀ x f, s.seatHolds j x f → x ∉ t.entries ∧ f.tube ≠ e.tube) →
    u.tube e.tube = some (t.evaluated s.map.params.plugLimit u.store)
  census : s.censusTrue → u.censusTrue
  quiet : s.censusTrue → (∀ k ∈ ks, ∀ n e t, s.seatHolds k n e → s.tube e.tube = some t → n ∈ t.entries) →
    s.completionQuiet u

theorem State.SeatsClosed.nil (s : State) : s.SeatsClosed s [] where
  frame := rfl
  seat k := by simp
  returned := nofun
  unheld _ _ := rfl
  free := rfl
  watched := nofun
  tube _ _ := rfl
  record _ := rfl
  evaluated := nofun
  census := id
  quiet _ _ := ⟨rfl, rfl, rfl, fun _ h _ => h⟩

/-- An entry number that a freed seat held stays in use, and its tube is the same. -/
theorem State.SeatsClosed.entry {s u : State} {ks : List (Fin 4)} (h : s.SeatsClosed u ks) (n : Nat) :
    (u.store.entry n = s.store.entry n ∧ ∀ k ∈ ks, ∀ e, ¬ s.seatHolds k n e) ∨
    ∃ e, s.store.entry n = some e ∧ u.store.entry n = some e.returned := by
  by_cases hn : ∀ k ∈ ks, ∀ e, ¬ s.seatHolds k n e
  · exact .inl ⟨congrArg PoolSlot.content (h.unheld n hn), hn⟩
  · push Not at hn
    obtain ⟨k, hk, e, he⟩ := hn
    have hu := h.returned k hk n e he
    obtain ⟨r, -, -, hse⟩ := he
    exact .inr ⟨e, hse, hu⟩

theorem Entry.returned_twice (e : Entry) : e.returned.returned = e.returned := rfl

theorem State.closeSeat_free {s : State} {k : Fin 4} (h : (s.seats.get k).held = none) : s.closeSeat k = s := by
  unfold State.closeSeat
  rw [h]

theorem State.closeSeat_stale {s : State} {k : Fin 4} {r : EntryRef} (h : (s.seats.get k).held = some r)
    (hn : s.store.entry r.number = none) : s.closeSeat k = s.freeSeat k := by
  unfold State.closeSeat
  rw [h]
  dsimp only
  rw [hn]

theorem State.closeSeat_held {s : State} {k : Fin 4} {r : EntryRef} {e : Entry} (h : (s.seats.get k).held = some r)
    (he : s.store.entry r.number = some e) : s.closeSeat k = (s.freeSeat k).changeStatus r.number e.returned := by
  unfold State.closeSeat
  rw [h]
  dsimp only
  rw [he]

theorem State.evaluates_record {s u : State} {i : Nat} (h : s.evaluates u i) (j : Nat) (ht : s.tube i = none → u.tube i = none) :
    (u.tube j).map Tube.listAndPlace = (s.tube j).map Tube.listAndPlace := by
  obtain ⟨hown, hother, -, -⟩ := h
  by_cases hj : j = i
  · subst hj
    cases hs : s.tube j with
    | none => rw [ht hs]
    | some t => rw [hown t hs]; rfl
  · rw [hother j hj]

theorem State.changeStatus_tube_none {s : State} {n : Nat} {e : Entry} (h : s.tube e.tube = none) :
    (s.changeStatus n e).tube e.tube = none := by
  unfold State.changeStatus State.tube
  rw [State.watchTube_frame, State.evaluate_none (s := { s with store := s.store.setEntry n e }) h]
  exact h

theorem State.watched_of_record {s r u : State} {i : Nat} (h : r.watched u i) (hw : r.map.watches = s.map.watches)
    (ht : (r.tube i).map Tube.listAndPlace = (s.tube i).map Tube.listAndPlace) : s.watched u i := by
  intro k t hs hk
  rw [hs] at ht
  obtain ⟨x, hx, hxt⟩ := Option.map_eq_some_iff.mp ht
  refine h k x hx ?_
  rw [hw, hk, show x.pos = t.pos from congrArg Prod.snd hxt]

/-- A seat that holds no entry in use, freed or left as it is. -/
theorem State.SeatsClosed.skip {s u : State} {ks : List (Fin 4)} (h : s.SeatsClosed u ks) {k : Fin 4}
    (hno : ∀ n e, ¬ s.seatHolds k n e) {v : Four Seat} (hv : ∀ j, v.get j =
      if j ∈ k :: ks ∧ (s.seats.get j).held ≠ none then { held := none, expiry := none } else s.seats.get j) :
    s.SeatsClosed { u with seats := v } (k :: ks) where
  frame := h.frame.trans rfl
  seat := hv
  returned := List.forall_mem_cons.mpr ⟨fun n e he => absurd he (hno n e), h.returned⟩
  unheld n hn := h.unheld n fun j hj => hn j (List.mem_cons_of_mem k hj)
  free := h.free
  watched := List.forall_mem_cons.mpr ⟨fun n e he => absurd he (hno n e), h.watched⟩
  tube i hi := h.tube i fun j hj => hi j (List.mem_cons_of_mem k hj)
  record := h.record
  evaluated := List.forall_mem_cons.mpr ⟨fun n e _ he => absurd he (hno n e), fun j hj n e t he ht hx =>
    h.evaluated j hj n e t he ht fun i hi => hx i (List.mem_cons_of_mem k hi)⟩
  census := h.census
  quiet hc hl := h.quiet hc fun j hj => hl j (List.mem_cons_of_mem k hj)

/-- A seat whose entry is returned to DISPUTED. -/
theorem State.SeatsClosed.give {s u : State} {ks : List (Fin 4)} (h : s.SeatsClosed u ks) {k : Fin 4} (hk : k ∉ ks)
    {r : EntryRef} (hr : (s.seats.get k).held = some r) {e : Entry} (he : s.store.entry r.number = some e) :
    s.SeatsClosed ((u.freeSeat k).changeStatus r.number e.returned) (k :: ks) := by
  obtain ⟨⟨hown, hother, -, -⟩, hstore⟩ := (u.freeSeat k).changeStatus_evaluates r.number e.returned
  have hev := ((u.freeSeat k).changeStatus_evaluates r.number e.returned).1
  have hused : u.store.entry r.number ≠ none := by
    rcases h.entry r.number with ⟨hu, -⟩ | ⟨f, -, hu⟩ <;> rw [hu] <;> simp [he]
  have hholds : ∀ n f, s.seatHolds k n f → n = r.number ∧ f = e := by
    rintro n f ⟨x, hx, rfl, hf⟩
    obtain rfl := Option.some.inj (hx.symm.trans hr)
    exact ⟨rfl, Option.some.inj (hf.symm.trans he)⟩
  have hself : s.seatHolds k r.number e := ⟨r, hr, rfl, he⟩
  have hentry : ∀ n, ((u.freeSeat k).changeStatus r.number e.returned).store.entry n =
      if r.number = n then some e.returned else u.store.entry n := fun n => by
    rw [hstore]; exact Store.entry_setEntry _ _ _ _
  have hseats : ((u.freeSeat k).changeStatus r.number e.returned).seats = u.seats.set k { held := none, expiry := none } := by
    rw [State.changeStatus_frame]; rfl
  have hrec : ∀ i, (((u.freeSeat k).changeStatus r.number e.returned).tube i).map Tube.listAndPlace =
      (u.tube i).map Tube.listAndPlace := fun i => State.evaluates_record hev i State.changeStatus_tube_none
  refine
    { frame := ?frame, seat := fun j => ?seat, returned := ?returned, unheld := fun n hn => ?unheld, free := ?free,
      watched := ?watched, tube := fun i hi => ?tube, record := fun i => (hrec i).trans (h.record i),
      evaluated := ?evaluated
      census := fun hc => (State.Keeps.changeStatus (b := false) (u.freeSeat k) hused e.returned).census (h.census hc)
      quiet := fun hc hl => ?quiet }
  case frame => exact h.frame.trans (State.reviewsOnly.trans (u := u.freeSeat k) rfl (State.changeStatus_reviewsOnly _ _ _))
  case seat =>
    rw [hseats, Four.get_set, h.seat]
    by_cases hj : k = j
    · subst hj
      rw [if_pos rfl, if_pos ⟨List.mem_cons_self, by rw [hr]; nofun⟩]
    · simp only [if_neg hj, List.mem_cons, Ne.symm hj, false_or]
  case returned =>
    refine List.forall_mem_cons.mpr ⟨fun n f hf => ?_, fun j hj n f hf => ?_⟩
    · obtain ⟨rfl, rfl⟩ := hholds n f hf
      rw [hentry, if_pos rfl]
    · rw [hentry]
      by_cases hn : r.number = n
      · subst hn
        obtain ⟨-, -, -, hfe⟩ := hf
        rw [if_pos rfl, Option.some.inj (hfe.symm.trans he)]
      · rw [if_neg hn, h.returned j hj n f hf]
  case unheld =>
    have hne : r.number ≠ n := fun hrn => hn k List.mem_cons_self e (hrn ▸ hself)
    rw [hstore]
    refine (Store.slot_setSlot _ _ _ _).trans ((if_neg hne).trans ?_)
    exact h.unheld n fun j hj => hn j (List.mem_cons_of_mem k hj)
  case free => rw [hstore]; exact h.free
  case watched =>
    refine List.forall_mem_cons.mpr ⟨fun n f hf => ?_, fun j hj n f hf => ?_⟩
    · obtain ⟨rfl, rfl⟩ := hholds n f hf
      exact State.watched_of_record ((u.freeSeat k).changeStatus_watched r.number f.returned)
        (by rw [State.freeSeat_map, h.frame]) (h.record f.tube)
    · exact State.watched_later (h.watched j hj n f hf) fun _ hP hn => State.changeStatus_notices hP _ _ _ hn
  case tube =>
    refine (hother i fun hi' => hi k List.mem_cons_self r.number e hself hi'.symm).trans ?_
    exact h.tube i fun j hj => hi j (List.mem_cons_of_mem k hj)
  case evaluated =>
    have hlimit : u.map.params.plugLimit = s.map.params.plugLimit := by rw [h.frame]
    refine List.forall_mem_cons.mpr ⟨fun n f t hf ht hx => ?_, fun j hj n f t hf ht hx => ?_⟩
    · obtain ⟨rfl, rfl⟩ := hholds n f hf
      have hu : u.tube f.tube = some t := (h.tube f.tube fun i hi x g hg =>
        (hx i (List.mem_cons_of_mem k hi) (fun hik => hk (hik ▸ hi)) x g hg).2).trans ht
      exact (hown t hu).trans (by rw [State.freeSeat_map, hlimit])
    · have hjk : k ≠ j := fun hjk => hk (hjk ▸ hj)
      obtain ⟨hnot, htube⟩ := hx k List.mem_cons_self hjk r.number e hself
      refine (hother f.tube fun hi => htube hi.symm).trans ?_
      refine (h.evaluated j hj n f t hf ht fun i hi => hx i (List.mem_cons_of_mem k hi)).trans (congrArg some ?_)
      refine Tube.evaluated_congr fun x hxt => ?_
      rw [hentry, if_neg]
      rintro rfl
      exact hnot hxt
  case quiet =>
    refine State.completionQuiet_trans (h.quiet hc fun j hj => hl j (List.mem_cons_of_mem k hj)) ?_
    have hu : u.censusTrue := h.census hc
    cases ht : u.tube e.tube with
    | none => exact State.completionQuiet_changeStatus_none ht
    | some t =>
      refine State.completionQuiet_changeStatus (s := u.freeSeat k) (t := t) hu ht ?_
      have hin : r.number ∈ t.entries := by
        have hrec := h.record e.tube
        rw [ht] at hrec
        obtain ⟨x, hx, hxt⟩ := Option.map_eq_some_iff.mp hrec.symm
        rw [← show x.entries = t.entries from congrArg Prod.fst hxt]
        exact hl k List.mem_cons_self r.number e x hself hx
      exact Tube.evaluated_isOpen hin ((Store.entry_setEntry _ _ _ _).trans (if_pos rfl)) (.inl rfl)

/-- Freeing one more seat. -/
theorem State.SeatsClosed.next {s u : State} {ks : List (Fin 4)} (h : s.SeatsClosed u ks) {k : Fin 4} (hk : k ∉ ks) :
    s.SeatsClosed (u.closeSeat k) (k :: ks) := by
  have hseat : (u.seats.get k).held = (s.seats.get k).held := by rw [h.seat, if_neg fun hm => hk hm.1]
  cases hheld : (s.seats.get k).held with
  | none =>
    rw [State.closeSeat_free (hseat.trans hheld)]
    refine h.skip (v := u.seats) (fun n e ⟨r, hr, _⟩ => absurd (hheld.symm.trans hr) nofun) fun j => ?_
    rw [h.seat]
    by_cases hj : j = k
    · rw [hj, if_neg fun hm => hm.2 hheld, if_neg fun hm => hm.2 hheld]
    · simp only [List.mem_cons, hj, false_or]
  | some r =>
    rcases h.entry r.number with ⟨hu, -⟩ | ⟨e, he, hu⟩
    · cases he : s.store.entry r.number with
      | none =>
        rw [State.closeSeat_stale (hseat.trans hheld) (hu.trans he)]
        refine h.skip (v := (u.freeSeat k).seats) (fun n e ⟨x, hx, hxn, hf⟩ => ?_) fun j => ?_
        · rw [State.freeSeat_seats, Four.get_set, h.seat]
          by_cases hj : k = j
          · subst hj
            rw [if_pos rfl, if_pos ⟨List.mem_cons_self, by rw [hheld]; nofun⟩]
          · simp only [if_neg hj, List.mem_cons, Ne.symm hj, false_or]
        · obtain rfl := Option.some.inj (hx.symm.trans hheld)
          subst hxn
          exact absurd (he.symm.trans hf) nofun
      | some e =>
        rw [State.closeSeat_held (hseat.trans hheld) (hu.trans he)]
        exact h.give hk hheld he
    · rw [State.closeSeat_held (hseat.trans hheld) hu, Entry.returned_twice]
      exact h.give hk hheld he

theorem State.closeSeats_closed (s : State) : s.SeatsClosed (fourNumbers.foldl State.closeSeat s) [3, 2, 1, 0] :=
  ((((State.SeatsClosed.nil s).next (k := 0) (by decide)).next (k := 1) (by decide)).next (k := 2) (by decide)).next
    (k := 3) (by decide)

theorem mem_allSeats (k : Fin 4) : k ∈ ([3, 2, 1, 0] : List (Fin 4)) := by revert k; decide

/-! ## CLOSE_CAMPAIGN (R11) -/

theorem Channel.close_eq (c : Channel) : c.close =
    if c.state = .idle ∨ c.state = .seeking ∨ c.state = .halted then
      { c with state := .off, prior := none, interrupted := none }
    else c := by
  unfold Channel.close
  cases h : c.state <;> simp

theorem State.anyClaim_iff (s : State) : s.anyClaim = true ↔ ∃ t ∈ s.map.tubes, t.claim ≠ none := by
  unfold State.anyClaim
  simp only [List.any_eq_true, Option.isSome_iff_ne_none]

/-- The part as CLOSE_CAMPAIGN finds the seats: channels off, seeks abandoned. -/
def State.closing (s : State) : State :=
  { s with chans := s.chans.map Channel.close, walker := s.walker.abandonAll }

theorem exec_closeCampaign {rq : Requester} {s : State} (h : s.takes .closeCampaign rq = true) :
    exec (.closeCampaign rq) s = .next
      (if s.anyClaim then s.answer .closeCampaign .claimsActive []
       else State.answer { fourNumbers.foldl State.closeSeat s.closing with
         map := { (fourNumbers.foldl State.closeSeat s.closing).map with phase := .closed } } .closeCampaign .ok []) :=
  (exec_accepted (i := .closeCampaign rq) h rfl rfl).trans rfl

/-- Settles O17, by freeing the seats one after another. -/
theorem closeCampaignCloses : Obligations.CloseCampaignCloses := by
  unfold Obligations.CloseCampaignCloses
  intro rq s h
  rw [exec_closeCampaign h]
  refine ⟨fun hc => by rw [if_pos (s.anyClaim_iff.mpr hc)], fun hno => ?_⟩
  have hany : ¬ s.anyClaim = true := fun hc => by
    obtain ⟨t, ht, hcl⟩ := s.anyClaim_iff.mp hc
    exact hcl (hno t ht)
  have hclosed := s.closing.closeSeats_closed
  have hholds : ∀ {k : Fin 4} {r : EntryRef} {e : Entry}, (s.seats.get k).held = some r →
      s.store.entry r.number = some e → s.closing.seatHolds k r.number e := fun hr he => ⟨_, hr, rfl, he⟩
  have hframe : fourNumbers.foldl State.closeSeat s.closing = _ := hclosed.frame
  rw [if_neg hany]
  refine ⟨_, rfl, fun n => ?chan, ?walker, fun k => ⟨?held, fun hk => ?expiry⟩, fun k r e hr he => ⟨?entry, ?watched, ?tube⟩,
    fun n hn => ?slot, hclosed.free, fun i hi => ?kept, fun hc hl => ?quiet, ?response, ?frame⟩
  case chan =>
    rw [← Channel.close_eq]
    unfold State.chan
    rw [State.answer_chans, hframe]
    exact Eight.get_map _ _ _
  case walker => rw [State.answer_walker, hframe]; rfl
  case held =>
    rw [State.answer_seats, hclosed.seat]
    split
    · rfl
    · next hk => exact not_not.mp fun hne => hk ⟨mem_allSeats k, hne⟩
  case expiry =>
    rw [State.answer_seats, hclosed.seat, if_pos ⟨mem_allSeats k, hk⟩]
  case entry => exact hclosed.returned k (mem_allSeats k) _ _ (hholds hr he)
  case watched => exact hclosed.watched k (mem_allSeats k) _ _ (hholds hr he)
  case tube =>
    intro u hu hx
    refine hclosed.evaluated k (mem_allSeats k) _ _ u (hholds hr he) hu fun j _ hj x f ⟨y, hy, hyx, hf⟩ => ?_
    subst hyx
    exact ⟨(hx j y hj hy).1, (hx j y hj hy).2 f hf⟩
  case slot =>
    refine hclosed.unheld n fun k _ e ⟨r, hr, hrn, _⟩ => hn k r hr hrn
  case kept =>
    refine hclosed.tube i fun k _ n e ⟨r, hr, hrn, he⟩ => hi k r e hr (hrn ▸ he)
  case quiet =>
    obtain ⟨-, -, ha, hn⟩ := hclosed.quiet hc fun k _ n e t ⟨r, hr, hrn, he⟩ ht => hrn ▸ hl k r e t hr (hrn ▸ he) ht
    exact ⟨ha, hn⟩
  case response => rw [State.answer_port, hframe]; rfl
  case frame =>
    rw [hframe]
    rfl

end Sys2Proof.Machine
end

section
/-! Channels: their configuration, calibration and start, the walker's settings, and the checks of ASSIGN_TUBE (O20,
O21, O22, O25, O27, O29). -/

namespace Sys2Proof.Machine

/-! ## Requests that name one of eight -/

theorem exec_at {i : Instr} {s : State} {cmd : Command} {rq : Requester} {r : Bool} {n : Fin 8}
    (act : State → Fin 8 → State) (h : s.takes cmd rq = true)
    (hi : exec i s = .next (s.takeRequest cmd rq r (fun s => act s (eightOf n.val)))) (hr : r = true) :
    exec i s = .next (act s n) := by
  rw [hi, State.takeRequest_takes h, hr, if_pos rfl, eightOf_val]

/-! ## What the abandonment of a seek leaves (R80, R81) -/

theorem Walker.abandon_seek_ne {w : Walker} {n : Fin 8} {j : Seek} (h : (w.abandon n).seek = some j) : j.chan ≠ n := by
  intro hj
  by_cases hn : ∀ i, w.seek = some i → i.chan ≠ n
  · rw [Walker.abandon_seek_other hn] at h
    exact hn j h hj
  · push Not at hn
    rw [Walker.abandon_seek_own hn] at h
    cases h

theorem Walker.abandon_seek_iff {w : Walker} {n : Fin 8} {k : Seek} (hk : k.chan ≠ n) :
    (w.abandon n).seek = some k ↔ w.seek = some k := by
  by_cases hn : ∀ i, w.seek = some i → i.chan ≠ n
  · rw [Walker.abandon_seek_other hn]
  · push Not at hn
    rw [Walker.abandon_seek_own hn]
    obtain ⟨i, hi, hin⟩ := hn
    refine ⟨nofun, fun h => ?_⟩
    rw [hi] at h
    exact absurd (Option.some.inj h ▸ hin) hk

theorem Walker.abandon_waiting (w : Walker) (n m : Fin 8) :
    (w.abandon n).waiting.get m = if n = m then false else w.waiting.get m := Eight.get_set _ _ _ _

/-! ## CONFIGURE_CHANNEL (R51, R52) -/

/-- Channel and walker under a new configuration, before the seek condition is tested (R52). -/
def State.reconfigure (s : State) (n : Fin 8) (cfg : Config) : State :=
  { s with
    chans := s.chans.set n ((s.chan n).reconfigured cfg)
    walker := { s.walker with
      cursors := if (s.chan n).config.sameSelection cfg then s.walker.cursors else s.walker.cursors.set n none
      waiting := if (s.chan n).state = .seeking then s.walker.waiting.set n false else s.walker.waiting
      seek := if (s.chan n).state = .seeking then (s.walker.abandon n).seek else s.walker.seek } }

theorem State.configure_eq (s : State) (n : Fin 8) (cfg : Config) :
    s.configure n cfg = (s.reconfigure n cfg).testSeek n := by
  unfold State.configure State.reconfigure
  dsimp only
  congr 1
  split_ifs <;> rfl

theorem State.reconfigure_chan (s : State) (n m : Fin 8) (cfg : Config) :
    (s.reconfigure n cfg).chan m = if n = m then (s.chan n).reconfigured cfg else s.chan m := Eight.get_set _ _ _ _

theorem Config.sameSelection_iff (a b : Config) : a.sameSelection b = true ↔
    a.window = b.window ∧ a.keepouts = b.keepouts ∧ a.majorAxis = b.majorAxis ∧ a.startCorner = b.startCorner ∧
      a.serpentine = b.serpentine ∧ a.mix = b.mix ∧ a.pattern = b.pattern ∧ a.zones = b.zones ∧ a.states = b.states :=
  decide_eq_true_iff

/-- The channel that CONFIGURE_CHANNEL has sent to seek: it rested, its level is above 0 and its flag clear (R43). -/
def Channel.seeksUnder (c : Channel) (cfg : Config) : Bool :=
  decide (c.state = .idle ∨ c.state = .seeking) && decide (0 < cfg.priority) &&
    !(c.config.sameSelection cfg && c.exhausted)

/-- The seek condition of the channel under its new configuration. -/
theorem Channel.reconfigured_seeks (c : Channel) (cfg : Config) :
    ((c.reconfigured cfg).state = .idle ∧ 0 < (c.reconfigured cfg).config.priority ∧
      (c.reconfigured cfg).exhausted = false) ↔ c.seeksUnder cfg = true := by
  unfold Channel.seeksUnder Channel.reconfigured
  simp only [Bool.and_eq_true, decide_eq_true_eq, Bool.not_eq_true']
  have hstate : (if c.state = .seeking then ChanState.idle else c.state) = .idle ↔
      c.state = .idle ∨ c.state = .seeking := by cases c.state <;> simp
  rw [hstate, and_assoc]
  cases c.config.sameSelection cfg <;> simp

theorem State.configure_chan (s : State) (n : Fin 8) (cfg : Config) :
    (s.configure n cfg).chan n = { s.chan n with
      config := cfg
      state := if (s.chan n).seeksUnder cfg then .seeking
        else if (s.chan n).state = .idle ∨ (s.chan n).state = .seeking then .idle else (s.chan n).state
      exhausted := (s.chan n).config.sameSelection cfg && (s.chan n).exhausted } := by
  rw [State.configure_eq, State.testSeek_chan, State.reconfigure_chan, if_pos rfl]
  have hexh : (if (s.chan n).config.sameSelection cfg = true then (s.chan n).exhausted else false) =
      ((s.chan n).config.sameSelection cfg && (s.chan n).exhausted) := by
    cases (s.chan n).config.sameSelection cfg <;> rfl
  by_cases hs : (s.chan n).seeksUnder cfg = true
  · rw [if_pos ⟨rfl, ((s.chan n).reconfigured_seeks cfg).mpr hs⟩, if_pos hs]
    unfold Channel.reconfigured
    rw [hexh]
  · rw [if_neg fun h => hs (((s.chan n).reconfigured_seeks cfg).mp h.2), if_neg hs]
    unfold Channel.reconfigured
    rw [hexh]
    cases (s.chan n).state <;> rfl

theorem State.configure_waiting (s : State) (n m : Fin 8) (cfg : Config) :
    (s.configure n cfg).walker.waiting.get m = true ↔
      (n = m ∧ (s.chan n).seeksUnder cfg = true) ∨
        (¬ (n = m ∧ (s.chan n).state = .seeking) ∧ s.walker.waiting.get m = true) := by
  rw [State.configure_eq, State.testSeek_waiting, State.reconfigure_chan, if_pos rfl, Channel.reconfigured_seeks, or_comm]
  refine or_congr_right ?_
  unfold State.reconfigure
  dsimp only
  by_cases hk : (s.chan n).state = .seeking
  · rw [if_pos hk, Eight.get_set]
    by_cases hm : n = m
    · simp [hm, hm ▸ hk]
    · simp [hm]
  · rw [if_neg hk]
    simp [hk]

theorem State.configure_walker (s : State) (n : Fin 8) (cfg : Config) :
    (s.configure n cfg).walker.seek = (if (s.chan n).state = .seeking then (s.walker.abandon n).seek else s.walker.seek) ∧
    (s.configure n cfg).walker.cursors =
      if (s.chan n).config.sameSelection cfg then s.walker.cursors else s.walker.cursors.set n none := by
  rw [State.configure_eq, State.testSeek_frame]
  exact ⟨rfl, rfl⟩

theorem State.configure_frame (s : State) (n : Fin 8) (cfg : Config) :
    s.configure n cfg = { s with
      chans := (s.configure n cfg).chans
      walker := { s.walker with
        cursors := (s.configure n cfg).walker.cursors
        waiting := (s.configure n cfg).walker.waiting
        seek := (s.configure n cfg).walker.seek } } := by
  rw [State.configure_eq, State.testSeek_frame]
  rfl

theorem State.configure_other (s : State) {n m : Fin 8} (hm : m ≠ n) (cfg : Config) :
    s.sameChannel (s.configure n cfg) m ∧
      (s.configure n cfg).walker.cursors.get m = s.walker.cursors.get m := by
  obtain ⟨hseek, hcursors⟩ := s.configure_walker n cfg
  refine ⟨⟨?_, ?_, fun k hk => ?_⟩, ?_⟩
  · rw [State.configure_eq, State.testSeek_chan, if_neg fun h => hm h.1.symm, State.reconfigure_chan, if_neg hm.symm]
  · rw [Bool.eq_iff_iff, State.configure_waiting]
    simp [hm.symm]
  · rw [hseek]
    split
    · exact Walker.abandon_seek_iff (hk ▸ hm)
    · rfl
  · rw [hcursors]
    split
    · rfl
    · rw [Eight.get_set, if_neg hm.symm]

theorem exec_configureChannel {rq : Requester} {s : State} (n : Fin 8) {f : ConfigFields}
    (h : s.takes .configureChannel rq = true) (hf : f.inRange = true) :
    exec (.configureChannel rq n.val f) s =
      .next ((s.configure n f.config).answer .configureChannel .ok (configBody f.config)) :=
  exec_at (i := .configureChannel rq n.val f)
    (fun s n => (s.configure n f.config).answer .configureChannel .ok (configBody f.config)) h rfl
    (by rw [numberInRange_val, hf]; rfl)

theorem faceOf_isSome (n : Nat) : (faceOf n).isSome = true ↔ n ≤ 1 := by
  match n with
  | 0 | 1 => decide
  | n + 2 => exact ⟨nofun, fun h => absurd h (by omega)⟩

theorem axisOf_isSome (n : Nat) : (axisOf n).isSome = true ↔ n ≤ 1 := by
  match n with
  | 0 | 1 => decide
  | n + 2 => exact ⟨nofun, fun h => absurd h (by omega)⟩

theorem cornerOf_isSome (n : Nat) : (cornerOf n).isSome = true ↔ n ≤ 3 := by
  match n with
  | 0 | 1 | 2 | 3 => decide
  | n + 4 => exact ⟨nofun, fun h => absurd h (by omega)⟩

theorem stallTickOf_isSome (n : Nat) : (stallTickOf n).isSome = true ↔ n ≤ 3 := by
  match n with
  | 0 | 1 | 2 | 3 => decide
  | n + 4 => exact ⟨nofun, fun h => absurd h (by omega)⟩

theorem ConfigFields.inRange_iff (f : ConfigFields) : f.inRange = true ↔
    f.face ≤ 1 ∧ (f.keep2 = true → f.majorAxis ≤ 1 ∧ f.startCorner ≤ 3) ∧ (f.keep4 = true → f.priority ≤ 7) ∧
      (f.keep5 = true → f.stallTick ≤ 3 ∧ f.stallReload ≤ 255) := by
  have himp : ∀ (k b : Bool), (!k || b) = true ↔ (k = true → b = true) := by decide
  unfold ConfigFields.inRange
  simp only [Bool.and_eq_true, himp, faceOf_isSome, axisOf_isSome, cornerOf_isSome, stallTickOf_isSome,
    decide_eq_true_eq, and_assoc]

theorem clamp_le (i : Int) : clamp i ≤ 255 := by unfold clamp; omega

theorem some_getD {α : Type} {o : Option α} (h : o.isSome = true) (d : α) : some (o.getD d) = o := by
  cases o with
  | none => cases h
  | some x => rfl

theorem ConfigFields.window_le (f : ConfigFields) :
    f.config.window.rowLo ≤ 255 ∧ f.config.window.rowHi ≤ 255 ∧ f.config.window.colLo ≤ 255 ∧
      f.config.window.colHi ≤ 255 := by
  unfold ConfigFields.config
  dsimp only
  split
  · exact ⟨clamp_le _, clamp_le _, clamp_le _, clamp_le _⟩
  · decide

/-- Settles O20: the command by the configured channel and the others, the fields by their groups. -/
theorem configureChannelApplies : Obligations.ConfigureChannelApplies := by
  unfold Obligations.ConfigureChannelApplies
  refine ⟨fun rq s n f h => ⟨fun hf => ?range, fun hf => ?accepted⟩, ConfigFields.inRange_iff, fun f hf => ?fields⟩
  case range => exact exec_out_of_range (i := .configureChannel rq n.val f) h rfl (by rw [hf, Bool.and_false])
  case accepted =>
    obtain ⟨hseek, hcursors⟩ := s.configure_walker n f.config
    refine ⟨_, exec_configureChannel n h hf, (s.chan n).config.sameSelection f.config,
      decide ((s.chan n).state = .idle ∨ (s.chan n).state = .seeking), (s.chan n).seeksUnder f.config, rfl, rfl,
      (s.configure_chan n f.config).trans (by simp only [decide_eq_true_eq]), ?_, Config.sameSelection_iff _ _,
      (s.configure_waiting n n f.config).trans (by simp), fun hs => hseek.trans (if_neg hs), fun hs k hk => ?_,
      fun m hm => s.configure_other hm f.config, ?_, ?_⟩
    · rw [State.answer_walker, hcursors]
      split
      · rfl
      · rw [Eight.get_set, if_pos rfl]
    · exact Walker.abandon_seek_ne (hseek.symm.trans hk |>.symm.trans (if_pos hs) |>.symm)
    · rw [State.answer_port, State.configure_frame]
      rfl
    · rw [State.configure_frame]
      rfl
  case fields =>
    obtain ⟨hface, h2, -, h5⟩ := f.inRange_iff.mp hf
    refine ⟨fun hk => ⟨if_neg (hk ▸ nofun), if_neg (hk ▸ nofun)⟩, fun hk => ⟨if_pos hk, if_pos hk⟩,
      fun hk => ⟨if_neg (hk ▸ nofun), if_neg (hk ▸ nofun), if_neg (hk ▸ nofun)⟩, fun hk => ⟨?axis, ?corner, if_pos hk⟩,
      fun hk => ⟨if_neg (hk ▸ nofun), fun i hi => ?pattern, fun i hi => ?zones, if_neg (hk ▸ nofun)⟩,
      fun hk => ⟨if_pos hk, if_pos hk, if_pos hk, if_pos hk⟩, fun hk => if_neg (hk ▸ nofun), fun hk => if_pos hk,
      fun hk => ⟨if_neg (hk ▸ nofun), if_neg (hk ▸ nofun), if_neg (hk ▸ nofun)⟩,
      fun hk => ⟨?tick, if_pos hk, if_pos hk⟩, some_getD ((faceOf_isSome _).mpr hface) _, f.window_le,
      fun i => ⟨fun hi => ?_, fun hi => ?_, fun h0 h1 => ?_⟩⟩
    case axis => exact (congrArg some (if_pos hk)).trans (some_getD ((axisOf_isSome _).mpr (h2 hk).1) _)
    case corner => exact (congrArg some (if_pos hk)).trans (some_getD ((cornerOf_isSome _).mpr (h2 hk).2) _)
    case tick => exact (congrArg some (if_pos hk)).trans (some_getD ((stallTickOf_isSome _).mpr (h5 hk).1) _)
    case pattern => rw [show f.config.pattern = Config.default.pattern from if_neg (hk ▸ nofun), Config.default_pattern hi]
    case zones => rw [show f.config.zones = Config.default.zones from if_neg (hk ▸ nofun), Config.default_zones hi]
    all_goals unfold clamp; omega

/-! ## SET_CHANNEL_CAL, SET_KEEPOUT, SET_CLEARANCE (R54, R68, R49) -/

theorem mergeFour_get (new : Four (Option Nat)) (old : Four Nat) (k : Fin 4) :
    (mergeFour new old).get k = (new.get k).getD (old.get k) := by
  match k with
  | 0 | 1 | 2 | 3 => rfl

theorem exec_setChannelCal {rq : Requester} {s : State} (n : Fin 8) {f : CalFields}
    (h : s.takes .setChannelCal rq = true) (hf : f.inRange = true) :
    exec (.setChannelCal rq n.val f) s = .next (s.setCal n f) :=
  exec_at (i := .setChannelCal rq n.val f) (fun s n => s.setCal n f) h rfl (by rw [numberInRange_val, hf]; rfl)

/-- The eight regions with one of them written (R68). -/
def Walker.regionsWith (w : Walker) (k : Fin 8) (r : Option Rect) : Eight (Option Rect) := w.keepouts.set k r

/-- Settles O21. -/
theorem probingSettings : Obligations.ProbingSettings := by
  unfold Obligations.ProbingSettings
  refine fun rq s => ⟨fun n f h hf => ⟨fun hc => ?_, fun hc => ⟨f.apply (s.chan n).cal, ?_, rfl, fun k => ?_⟩⟩,
    fun k defined b h => ⟨s.walker.regionsWith k (if defined then some b.clamped else none), ?_, ?_, fun m hm => ?_⟩,
    fun v hv h => ?_⟩
  · rw [exec_setChannelCal n h hf]
    exact congrArg _ (if_pos (Option.isSome_iff_ne_none.mpr hc))
  · rw [exec_setChannelCal n h hf]
    exact congrArg _ (if_neg (by rw [hc]; decide))
  · exact ⟨mergeFour_get _ _ k, mergeFour_get _ _ k⟩
  · exact exec_at (i := .setKeepout rq k.val defined b) (fun s k =>
      State.answer { s with walker := { s.walker with
        keepouts := s.walker.regionsWith k (if defined then some b.clamped else none) } } .setKeepout .ok
        ((s.walker.regionsWith k (if defined then some b.clamped else none)).toList.flatMap regionBody))
      h rfl (numberInRange_val k)
  · exact (Eight.get_set _ _ _ _).trans (if_pos rfl)
  · exact (Eight.get_set _ _ _ _).trans (if_neg hm.symm)
  · exact (exec_accepted (i := .setClearance rq v) h rfl (decide_eq_true hv)).trans rfl

/-! ## START_CHANNEL (R55) -/

theorem State.testSeek_yes {s : State} {n : Fin 8} (h : (s.chan n).state = .idle ∧ 0 < (s.chan n).config.priority ∧
      (s.chan n).exhausted = false) :
    s.testSeek n = { s with
      chans := s.chans.set n { s.chan n with state := .seeking }
      walker := { s.walker with waiting := s.walker.waiting.set n true } } := if_pos h

theorem State.testSeek_no {s : State} {n : Fin 8} (h : ¬ ((s.chan n).state = .idle ∧ 0 < (s.chan n).config.priority ∧
      (s.chan n).exhausted = false)) : s.testSeek n = s := if_neg h

/-- Settles O22. -/
theorem startChannelStarts : Obligations.StartChannelStarts := by
  unfold Obligations.StartChannelStarts
  intro rq s n h
  rw [exec_at (i := .startChannel rq n.val) State.startChannel h rfl (numberInRange_val n)]
  unfold State.startChannel
  dsimp only
  refine ⟨fun hl => by rw [if_pos hl], fun hl ho => by rw [if_neg (hl ▸ nofun), if_pos ho], fun hl ho => ?_⟩
  rw [if_neg (hl ▸ nofun), if_neg (not_not.mpr ho)]
  have hchan : ∀ c : Channel, (s.setChan n c).chan n = c := fun c => by rw [State.chan_setChan, if_pos rfl]
  refine ⟨fun hp => ?_, fun hp => ?_⟩
  · rw [State.testSeek_yes (by rw [hchan]; exact ⟨rfl, hp, rfl⟩), hchan]
    unfold State.setChan
    dsimp only
    rw [Eight.set_set]
  · rw [State.testSeek_no (by rw [hchan]; exact fun hs => absurd hs.2.1 (by rw [hp]; decide))]
    rfl

/-! ## RESUME (R60, R113) -/

theorem StallTimer.load_stopped {t : StallTimer} {cfg : Config} {now : Nat} (h : cfg.stallReload = 0) :
    (t.load cfg now).mode = .stopped ∧ (t.load cfg now).count = 0 := by
  unfold StallTimer.load
  rw [if_pos h]
  exact ⟨rfl, rfl⟩

theorem StallTimer.load_runs {t : StallTimer} {cfg : Config} {now : Nat} (h : 0 < cfg.stallReload) :
    t.load cfg now = { mode := .running, count := cfg.stallReload, tick := cfg.stallTick,
                       nextTick := now + cfg.stallTick.millis } := if_neg (by omega)

theorem State.sendClaim_some {s : State} {n : Fin 8} {k : Claim} (h : (s.chan n).claim = some k) (m : MessageKind) :
    s.sendClaim n m = s.send n m k.echo := by
  unfold State.sendClaim
  rw [h]

/-- A revived channel that holds a claim (R60, R113). -/
theorem State.revive_eq {s : State} {n : Fin 8} {k : Claim} (h : (s.chan n).claim = some k) (x : ChanState) :
    s.revive n x = { s with
      chans := s.chans.set n { s.chan n with
        state := x, prior := none, interrupted := none, timer := (s.chan n).timer.load (s.chan n).config s.clock }
      txs := s.txs.set n ((s.txs.get n).enqueue { kind := .release, echo := k.echo }) } := by
  have hload : (s.setChan n { s.chan n with state := x, prior := none, interrupted := none }).loadTimer n =
      s.setChan n { s.chan n with
        state := x, prior := none, interrupted := none, timer := (s.chan n).timer.load (s.chan n).config s.clock } := by
    unfold State.loadTimer
    rw [State.chan_setChan, if_pos rfl]
    unfold State.setChan
    dsimp only
    rw [Eight.set_set]
  unfold State.revive
  rw [hload, State.sendClaim_some (k := k) (by rw [State.chan_setChan, if_pos rfl]; exact h)]
  rfl

/-- Settles O25. -/
theorem resumeRevives : Obligations.ResumeRevives := by
  unfold Obligations.ResumeRevives
  intro rq s n h
  rw [exec_at (i := .resume rq n.val) State.resume h rfl (numberInRange_val n)]
  unfold State.resume
  dsimp only
  refine ⟨fun hs => by rw [if_pos hs], fun k p hs hk hp => ?_⟩
  rw [if_neg (not_not.mpr hs), hp, Option.getD_some, State.revive_eq hk]
  exact ⟨_, rfl, StallTimer.load_stopped, StallTimer.load_runs⟩

/-! ## SET_LINK (R96) -/

theorem policyOf_code (p : Policy) : policyOf p.code = some p := by cases p <;> rfl

theorem policyOf_isSome (n : Nat) : (policyOf n).isSome = true ↔ n ≤ 1 := by
  match n with
  | 0 | 1 => decide
  | n + 2 => exact ⟨nofun, fun h => absurd h (by omega)⟩

/-- Settles O29. -/
theorem setLinkSets : Obligations.SetLinkSets := by
  unfold Obligations.SetLinkSets
  refine fun rq s n policy strict enables h => ⟨fun hp => ?_, ?_⟩
  · refine exec_out_of_range (i := .setLink rq n.val policy strict enables) h rfl ?_
    rw [Bool.and_eq_false_iff, Bool.eq_false_iff, Bool.eq_false_iff, ne_eq, ne_eq, policyOf_isSome]
    exact .inr (by omega)
  · rintro p rfl
    refine (exec_at (i := .setLink rq n.val p.code strict enables)
      (fun s n => s.setLink n ((policyOf p.code).getD .auto) strict enables) h rfl
      (by rw [numberInRange_val, policyOf_code]; rfl)).trans ?_
    rw [policyOf_code]
    rfl

end Sys2Proof.Machine
end

section
/-! ASSIGN_TUBE (O27, O28) and the interlock (O31, O32). -/

namespace Sys2Proof.Machine

/-! ## Names and distances (R1, introduction 5.3) -/

theorem State.findNamed_of {s : State} {name : TubeName} {j i : Nat} {t : Tube} (hn : s.map.named name = some j) :
    s.findNamed name = some (i, t) ↔ j = i ∧ s.tube i = some t := by
  unfold State.findNamed
  rw [hn]
  dsimp only
  rw [Option.map_eq_some_iff]
  constructor
  · rintro ⟨u, hu, he⟩
    obtain ⟨rfl, rfl⟩ := Prod.mk.inj he
    exact ⟨rfl, hu⟩
  · rintro ⟨rfl, ht⟩
    exact ⟨t, ht, rfl⟩

theorem State.findNamed_none {s : State} {name : TubeName} (hn : s.map.named name = none) : s.findNamed name = none := by
  unfold State.findNamed
  rw [hn]

theorem State.findNamed_position (s : State) (p : Pos) (i : Nat) (t : Tube) :
    s.findNamed (.position p) = some (i, t) ↔ s.map.at p = some i ∧ s.tube i = some t := by
  cases h : s.map.at p with
  | none => rw [State.findNamed_none (name := .position p) h]; exact ⟨nofun, fun h => nomatch h.1⟩
  | some j => rw [State.findNamed_of (name := .position p) h, Option.some.injEq]

theorem State.findNamed_index (s : State) (j i : Nat) (t : Tube) :
    s.findNamed (.index j) = some (i, t) ↔ j = i ∧ s.tube i = some t := by
  by_cases h : j < s.map.tubes.length
  · exact State.findNamed_of (if_pos h)
  · rw [State.findNamed_none (name := .index j) (if_neg h)]
    refine ⟨nofun, fun ⟨hj, ht⟩ => absurd ?_ h⟩
    exact hj ▸ (List.getElem?_eq_some_iff.mp ht).1

theorem Pos.distance_le (p q : Pos) (d : Nat) :
    p.distance q ≤ d ↔ p.row ≤ q.row + d ∧ q.row ≤ p.row + d ∧ p.col ≤ q.col + d ∧ q.col ≤ p.col + d := by
  unfold Pos.distance
  omega

theorem Rect.holds_iff (r : Rect) (p : Pos) :
    r.holds p = true ↔ r.rowLo ≤ p.row ∧ p.row ≤ r.rowHi ∧ r.colLo ≤ p.col ∧ p.col ≤ r.colHi := by
  simp only [Rect.holds, Bool.and_eq_true, decide_eq_true_eq, and_assoc]

/-! ## The claim rule (R47) -/

theorem TubeState.claimable_iff (x : TubeState) : x.claimable = true ↔ x = .untested ∨ x = .retest := by
  cases x <;> simp [TubeState.claimable]

section ClaimRule

variable {s : State} {n : Fin 8} {t : Tube}

theorem State.claimReason_phase (h : s.map.phase ≠ .active) : s.claimReason n t = some .phase := if_pos h

theorem State.claimReason_busy (h : s.map.phase = .active) (hs : t.state = .claimed ∨ t.state = .inTest) :
    s.claimReason n t = some .tubeBusy := by
  unfold State.claimReason
  rw [if_neg (not_not.mpr h), if_pos hs]

theorem State.claimReason_state (h : s.map.phase = .active) (hs : ¬ (t.state = .claimed ∨ t.state = .inTest))
    (hc : t.state.claimable = false) : s.claimReason n t = some .state := by
  unfold State.claimReason
  rw [if_neg (not_not.mpr h), if_neg hs, if_pos (by rw [hc]; rfl)]

/-- The conditions behind the tube's state: the tube's claim, the channel's, the latch and the clearance. -/
theorem State.claimReason_claimable (h : s.map.phase = .active) (hc : t.state.claimable = true) :
    s.claimReason n t = if t.claim.isSome then some .tubeBusy
      else if (s.chan n).claim.isSome then some .channelBusy
      else if s.interlock.latch then some .interlock
      else if s.clearanceHit (s.chan n).config.face t.pos then some .clearance
      else none := by
  have hs : ¬ (t.state = .claimed ∨ t.state = .inTest) := by
    rcases (TubeState.claimable_iff _).mp hc with hx | hx <;> rw [hx] <;> decide
  unfold State.claimReason
  rw [if_neg (not_not.mpr h), if_neg hs, if_neg (by rw [hc]; decide)]

theorem State.claimReason_none : s.claimReason n t = none ↔
    s.map.phase = .active ∧ (t.state = .untested ∨ t.state = .retest) ∧ t.claim = none ∧ (s.chan n).claim = none ∧
      s.interlock.latch = false ∧ ∀ (m : Fin 8) (k : Claim), (s.chan m).claim = some k →
        k.face = (s.chan n).config.face → s.walker.clearance < k.pos.distance t.pos := by
  rw [← State.clearanceHit_false, ← TubeState.claimable_iff]
  by_cases hp : s.map.phase = .active
  · cases hc : t.state.claimable with
    | false =>
      refine ⟨fun h => ?_, fun h => nomatch h.2.1⟩
      by_cases hs : t.state = .claimed ∨ t.state = .inTest
      · exact nomatch (State.claimReason_busy hp hs).symm.trans h
      · exact nomatch (State.claimReason_state hp hs hc).symm.trans h
    | true =>
      rw [State.claimReason_claimable hp hc]
      split_ifs with h1 h2 h3 h4
      · exact ⟨nofun, fun h => by rw [h.2.2.1] at h1; cases h1⟩
      · exact ⟨nofun, fun h => by rw [h.2.2.2.1] at h2; cases h2⟩
      · exact ⟨nofun, fun h => by rw [h.2.2.2.2.1] at h3; cases h3⟩
      · exact ⟨nofun, fun h => by rw [h.2.2.2.2.2] at h4; cases h4⟩
      · exact ⟨fun _ => ⟨hp, rfl, Option.not_isSome_iff_eq_none.mp h1, Option.not_isSome_iff_eq_none.mp h2,
          Bool.eq_false_iff.mpr h3, Bool.eq_false_iff.mpr h4⟩, fun _ => rfl⟩
  · rw [State.claimReason_phase hp]
    exact ⟨nofun, fun h => absurd h.1 hp⟩

/-- The claim rule asks of the part the phase, the claims and faces of the channels, the latch and the clearance. -/
theorem State.claimReason_congr {u : State} (hm : u.map.phase = s.map.phase)
    (hc : ∀ m, (u.chan m).claim = (s.chan m).claim) (hf : (u.chan n).config.face = (s.chan n).config.face)
    (hl : u.interlock.latch = s.interlock.latch) (hw : u.walker.clearance = s.walker.clearance) :
    u.claimReason n t = s.claimReason n t := by
  have hhit : ∀ f p, u.clearanceHit f p = s.clearanceHit f p := fun f p => by
    rw [← Bool.not_inj_iff, Bool.eq_iff_iff, Bool.not_eq_true', Bool.not_eq_true', State.clearanceHit_false,
      State.clearanceHit_false, hw]
    simp only [hc]
  unfold State.claimReason
  rw [hm, hc, hf, hl, hhit]

end ClaimRule

/-! ## ASSIGN_TUBE (R57, R58) -/

theorem exec_assignTube {rq : Requester} {s : State} (n : Fin 8) {name : TubeName} (h : s.takes .assignTube rq = true)
    (hn : name.inRange = true) : exec (.assignTube rq n.val name) s = .next (s.assignTube n name) :=
  exec_at (i := .assignTube rq n.val name) (fun s n => s.assignTube n name) h rfl (by rw [numberInRange_val, hn]; rfl)

theorem inKeepout_iff (w : Walker) (c : Config) (p : Pos) : inKeepout w c p = true ↔
    ∃ (r : Fin 8) (x : Rect), c.keepouts.get r = true ∧ w.keepouts.get r = some x ∧ x.holds p = true := by
  have hmem : ∀ r : Fin 8, r ∈ eightNumbers := by decide
  unfold inKeepout
  rw [List.any_eq_true]
  constructor
  · rintro ⟨r, -, hr⟩
    rw [Bool.and_eq_true] at hr
    obtain ⟨hk, hx⟩ := hr
    cases hw : w.keepouts.get r with
    | none => rw [hw] at hx; cases hx
    | some x => rw [hw] at hx; exact ⟨r, x, hk, hw, hx⟩
  · rintro ⟨r, x, hk, hw, hx⟩
    exact ⟨r, hmem r, by rw [hk, hw, Bool.true_and]; exact hx⟩

theorem State.mayAssign_iff (s : State) (c : Config) (p : Pos) : s.mayAssign c p = true ↔
    c.window.holds p = true ∧ ∀ (r : Fin 8) (x : Rect), c.keepouts.get r = true → s.walker.keepouts.get r = some x →
      x.holds p = false := by
  unfold State.mayAssign
  rw [Bool.and_eq_true, Bool.not_eq_true', Bool.eq_false_iff, ne_eq, inKeepout_iff]
  simp only [not_exists, not_and, Bool.not_eq_true]

theorem State.assignTube_found {s : State} {n : Fin 8} {name : TubeName} {i : Nat} {t : Tube}
    (hf : s.findNamed name = some (i, t)) : s.assignTube n name =
      if (s.chan n).state ≠ .idle ∧ (s.chan n).state ≠ .seeking then s.answer .assignTube .channelBusy []
      else if !s.mayAssign (s.chan n).config t.pos then s.answer .assignTube .outsideWindow []
      else s.assignClaim n i t := by
  unfold State.assignTube
  dsimp only
  rw [hf]

/-- Settles O27: the names, the distances, the checks of R57 in order, and the reasons of R47. -/
theorem assignTubeChecks : Obligations.AssignTubeChecks := by
  unfold Obligations.AssignTubeChecks
  refine ⟨fun s i t => ⟨fun p => s.findNamed_position p i t, fun j => s.findNamed_index j i t,
      fun k => State.findNamed_none rfl⟩,
    fun p q => ⟨p.distance_le q, fun r => r.holds_iff p⟩, fun rq s n name h hn => ?checks,
    fun s n t => State.claimReason_none, fun s n t => ⟨State.claimReason_phase, fun hp => ?reasons⟩⟩
  case checks =>
    rw [exec_assignTube n h hn]
    refine ⟨fun hf => ?_, fun i t hf => ⟨fun h1 h2 => ?_, fun hs hout => ?_⟩⟩
    · unfold State.assignTube
      dsimp only
      rw [hf]
    · rw [State.assignTube_found hf, if_pos ⟨h1, h2⟩]
    · have hmay : s.mayAssign (s.chan n).config t.pos = false := by
        rw [Bool.eq_false_iff, ne_eq, State.mayAssign_iff]
        rintro ⟨hwin, hkeep⟩
        rcases hout with hw | ⟨r, x, hr, hx, hp⟩
        · exact nomatch hw.symm.trans hwin
        · exact nomatch (hkeep r x hr hx).symm.trans hp
      rw [State.assignTube_found hf, if_neg fun hb => hs.elim hb.1 hb.2, if_pos (by rw [hmay]; rfl)]
  case reasons =>
    refine ⟨State.claimReason_busy hp, fun h1 h2 h3 h4 => ?_, fun hs hc => ?_⟩
    · refine State.claimReason_state hp (not_or.mpr ⟨h1, h2⟩) ?_
      rw [Bool.eq_false_iff, ne_eq, TubeState.claimable_iff]
      exact not_or.mpr ⟨h3, h4⟩
    · rw [State.claimReason_claimable hp ((TubeState.claimable_iff _).mpr hs), hc]
      refine ⟨fun hn => ?_, fun hn => ?_⟩
      · rw [if_neg (by decide), if_pos (Option.isSome_iff_ne_none.mpr hn)]
      · rw [hn]
        refine ⟨fun hl => ?_, fun hl hhit => ?_⟩
        · rw [if_neg (by decide), if_neg (by decide), if_pos hl]
        · rw [if_neg (by decide), if_neg (by decide), if_neg (by rw [hl]; decide), if_pos]
          obtain ⟨m, k, hk, hface, hd⟩ := hhit
          rw [← Bool.not_eq_false, State.clearanceHit_false]
          exact fun hall => absurd (hall m k hk hface) (Nat.not_lt.mpr hd)

/-! ## The claim request of ASSIGN_TUBE (R58, R46) -/

/-- The part as the claim request finds it: the channel's seek abandoned, the channel IDLE (R58). -/
def State.atRest (s : State) (n : Fin 8) : State :=
  { s with chans := s.chans.set n { s.chan n with state := .idle }, walker := s.walker.abandon n }

theorem State.atRest_chan (s : State) (n m : Fin 8) :
    (s.atRest n).chan m = if n = m then { s.chan n with state := .idle } else s.chan m := Eight.get_set _ _ _ _

theorem State.atRest_claimReason (s : State) (n : Fin 8) (t : Tube) :
    (s.atRest n).claimReason n t = s.claimReason n t := by
  refine State.claimReason_congr rfl (fun m => ?_) (by rw [State.atRest_chan, if_pos rfl]) rfl rfl
  rw [State.atRest_chan]
  split
  · next h => rw [← h]
  · rfl

theorem State.assignClaim_granted {s : State} {n : Fin 8} {t : Tube} (h : s.claimReason n t = none) (i : Nat) :
    s.assignClaim n i t =
      ((s.atRest n).grant n i t).answer .assignTube .ok (byte2 i ++ byte1 (min (t.passes + 1) 15)) := by
  rw [← State.atRest_claimReason] at h
  unfold State.assignClaim
  dsimp only
  rw [show (s.abandonSeek n).setChan n { s.chan n with state := .idle } = s.atRest n from rfl, h]

theorem State.assignClaim_refused {s : State} {n : Fin 8} {t : Tube} {reason : Status}
    (h : s.claimReason n t = some reason) (i : Nat) :
    s.assignClaim n i t = ((s.atRest n).testSeek n).answer .assignTube reason [] := by
  rw [← State.atRest_claimReason] at h
  unfold State.assignClaim
  dsimp only
  rw [show (s.abandonSeek n).setChan n { s.chan n with state := .idle } = s.atRest n from rfl, h]

theorem State.grant_watched {s : State} {n : Fin 8} {i : Nat} {t : Tube} (ht : s.tube i = some t)
    (hc : t.state ≠ .claimed) : s.watched (s.grant n i t) i :=
  State.watched_of_notices (State.changeTube_watched s i _ t ht hc rfl) rfl

theorem State.grant_completes (s : State) (n : Fin 8) (i : Nat) (t : Tube) : s.completes (s.grant n i t) :=
  State.completes_of_same (State.changeTube_completes s i _) rfl rfl

/-- A change at channel `n` and the abandonment of its seek leave every other channel as it was. -/
theorem State.sameChannel_of_abandon {s u : State} {n m : Fin 8} (hm : m ≠ n) (hc : u.chan m = s.chan m)
    (hw : u.walker.waiting.get m = s.walker.waiting.get m) (hs : u.walker.seek = (s.walker.abandon n).seek) :
    s.sameChannel u m :=
  ⟨hc, hw, fun k hk => by rw [hs]; exact Walker.abandon_seek_iff (hk ▸ hm)⟩

/-- Settles O28, by the grant or the reason against it. -/
theorem assignTubeClaims : Obligations.AssignTubeClaims := by
  unfold Obligations.AssignTubeClaims
  intro rq s n name i u h hn hf hstate hwindow hkeep
  have hassign : s.assignTube n name = s.assignClaim n i u := by
    rw [State.assignTube_found hf, if_neg fun hb => hstate.elim hb.1 hb.2,
      if_neg (by rw [(s.mayAssign_iff _ _).mpr ⟨hwindow, hkeep⟩]; decide)]
  rw [exec_assignTube n h hn, hassign]
  have hu : s.tube i = some u := State.findNamed_tube hf
  have hown : (s.atRest n).chan n = { s.chan n with state := .idle } := by rw [State.atRest_chan, if_pos rfl]
  refine ⟨fun hr => ?granted, fun reason hr => ?refused⟩
  case granted =>
    rw [State.assignClaim_granted hr]
    obtain ⟨htube, hothers, hframe⟩ := (s.atRest n).grant_spec n i u hu
    have hnot : u.state ≠ .claimed := by
      rcases (State.claimReason_none.mp hr).2.1 with hx | hx <;> rw [hx] <;> decide
    have hchan : ∀ m, ((s.atRest n).grant n i u).chan m = if n = m then
        { s.chan n with
          state := .assigned, claim := some (grantClaim (s.chan n).config i u), lastCount := none
          timer := (s.chan n).timer.load (s.chan n).config s.clock } else s.chan m := fun m => by
      unfold State.chan
      rw [hframe, Eight.get_set, hown]
      split
      · rfl
      · next hm => exact (s.atRest_chan n m).trans (if_neg hm)
    refine ⟨_, grantClaim (s.chan n).config i u, (s.chan n).timer.load (s.chan n).config s.clock, rfl, rfl, htube,
      hothers, (hchan n).trans (if_pos rfl), rfl, StallTimer.load_stopped, StallTimer.load_runs, fun m hm => ?_,
      State.watched_of_notices (State.watched_of_map (State.grant_watched (s := s.atRest n) (n := n) hu hnot) rfl) rfl,
      State.completes_of_same (State.grant_completes (s.atRest n) n i u) rfl rfl, ?_, ?_, ?_, fun j hj => ?_, ?_, ?_⟩
    · refine State.sameChannel_of_abandon hm ((hchan m).trans (if_neg hm.symm)) ?_ ?_
      · rw [State.answer_walker, hframe]
        exact (Walker.abandon_waiting _ _ _).trans (if_neg hm.symm)
      · rw [State.answer_walker, hframe]; rfl
    · rw [State.answer_txs, hframe, hown]; rfl
    · rw [State.answer_walker, hframe]; rfl
    · rw [State.answer_walker, hframe]
      exact (Walker.abandon_waiting _ _ _).trans (if_pos rfl)
    · rw [State.answer_walker, hframe] at hj
      exact Walker.abandon_seek_ne hj
    · rw [State.answer_port, hframe]; rfl
    · rw [hframe]; rfl
  case refused =>
    rw [State.assignClaim_refused hr]
    have hseeks : ((s.atRest n).chan n).state = .idle ∧ 0 < ((s.atRest n).chan n).config.priority ∧
        ((s.atRest n).chan n).exhausted = false ↔ 0 < (s.chan n).config.priority ∧ (s.chan n).exhausted = false := by
      rw [hown]; simp
    have hchan : ∀ m, ((s.atRest n).testSeek n).chan m = if n = m then
        { s.chan n with state := if 0 < (s.chan n).config.priority ∧ (s.chan n).exhausted = false then .seeking else .idle }
        else s.chan m := fun m => by
      rw [State.testSeek_chan, State.atRest_chan]
      by_cases hm : n = m
      · subst hm
        simp only [if_true, true_and]
        split_ifs <;> rfl
      · simp only [hm, false_and, if_false]
    have hwait : ∀ m, ((s.atRest n).testSeek n).walker.waiting.get m = if n = m then
        decide (0 < (s.chan n).config.priority ∧ (s.chan n).exhausted = false) else s.walker.waiting.get m := fun m => by
      rw [Bool.eq_iff_iff, State.testSeek_waiting, hseeks,
        show (s.atRest n).walker.waiting.get m = _ from Walker.abandon_waiting s.walker n m]
      by_cases hm : n = m
      · simp [hm]
      · simp [hm]
    have hseek : ((s.atRest n).testSeek n).walker.seek = (s.walker.abandon n).seek := by rw [State.testSeek_frame]; rfl
    refine ⟨_, decide (0 < (s.chan n).config.priority ∧ (s.chan n).exhausted = false), rfl, rfl, ?_,
      (hwait n).trans (if_pos rfl), fun j hj => Walker.abandon_seek_ne (hseek.symm.trans hj), fun m hm => ?_, ?_, ?_⟩
    · refine (hchan n).trans ((if_pos rfl).trans ?_)
      simp only [decide_eq_true_eq]
    · exact State.sameChannel_of_abandon hm ((hchan m).trans (if_neg hm.symm)) ((hwait m).trans (if_neg hm.symm)) hseek
    · rw [State.answer_port, State.testSeek_frame]; rfl
    · rw [State.testSeek_frame]; rfl

/-! ## One step for each channel -/

/-- Steps at the channels one after another, each of which leaves what `view` sees of the others: at each channel the
whole does what its own step does from where it began. -/
theorem State.foldl_local {β : Type} {f : State → Fin 8 → State} (view : State → Fin 8 → β)
    (hf : ∀ s k n, k ≠ n → view (f s k) n = view s n) (l : List (Fin 8)) (hl : l.Nodup) (s : State) (n : Fin 8) :
    (n ∉ l → view (l.foldl f s) n = view s n) ∧
    (n ∈ l → ∃ u, view u n = view s n ∧ view (l.foldl f s) n = view (f u n) n) := by
  induction l generalizing s with
  | nil => exact ⟨fun _ => rfl, nofun⟩
  | cons k t ih =>
    obtain ⟨hk, ht⟩ := List.nodup_cons.mp hl
    obtain ⟨hout, hin⟩ := ih ht (f s k)
    refine ⟨fun hn => ?_, fun hn => ?_⟩
    · obtain ⟨hne, hnt⟩ := not_or.mp (mt List.mem_cons.mpr hn)
      exact (hout hnt).trans (hf s k n (Ne.symm hne))
    · rcases List.mem_cons.mp hn with rfl | hnt
      · exact ⟨s, rfl, hout hk⟩
      · obtain ⟨u, hu, hv⟩ := hin hnt
        have hkn : k ≠ n := by rintro rfl; exact hk hnt
        exact ⟨u, hu.trans (hf s k n hkn), hv⟩

theorem State.forEach_local {β : Type} {f : State → Fin 8 → State} (view : State → Fin 8 → β)
    (hf : ∀ s k n, k ≠ n → view (f s k) n = view s n) (s : State) (n : Fin 8) :
    ∃ u, view u n = view s n ∧ view (eightNumbers.foldl f s) n = view (f u n) n :=
  (State.foldl_local view hf eightNumbers (by decide) s n).2 (by revert n; decide)

/-! ## INTERLOCK_CLEAR (R122) -/

/-- What a channel's return reads and writes: the clock, the channel, its transmitter and its waiting mark. -/
def State.atChannel (s : State) (n : Fin 8) : Nat × Channel × Transmitter × Bool :=
  (s.clock, s.chan n, s.txs.get n, s.walker.waiting.get n)

theorem State.sendClaim_tx (s : State) (k n : Fin 8) (m : MessageKind) (h : k ≠ n) :
    (s.sendClaim k m).txs.get n = s.txs.get n := by
  unfold State.sendClaim
  split
  · rfl
  · exact (Eight.get_set _ _ _ _).trans (if_neg h)

theorem State.revive_atChannel (s : State) {k n : Fin 8} (h : k ≠ n) (x : ChanState) :
    (s.revive k x).atChannel n = s.atChannel n := by
  have htx : (s.revive k x).txs.get n = s.txs.get n := State.sendClaim_tx _ k n .release h
  have hrest : (s.revive k x).clock = s.clock ∧ (s.revive k x).walker = s.walker := by
    rw [State.revive_frame]; exact ⟨rfl, rfl⟩
  unfold State.atChannel
  rw [s.revive_chan_ne h, htx, hrest.1, hrest.2]

theorem State.returnChannel_atChannel (s : State) (k n : Fin 8) (h : k ≠ n) :
    (s.returnChannel k).atChannel n = s.atChannel n := by
  unfold State.returnChannel
  dsimp only
  split
  · rfl
  · split
    · exact s.revive_atChannel h _
    · exact s.revive_atChannel h _
    · unfold State.atChannel
      rw [State.chan_setChan, if_neg h]
      rfl
    · have hwait : ∀ c, ((s.setChan k c).testSeek k).walker.waiting.get n = s.walker.waiting.get n := fun c => by
        rw [Bool.eq_iff_iff, State.testSeek_waiting]
        simp [h]
      unfold State.atChannel
      rw [hwait, State.testSeek_chan, if_neg (fun hk => h hk.1), State.chan_setChan, if_neg h, State.testSeek_frame]
      rfl

theorem State.returnChannel_frame (s : State) (n : Fin 8) :
    s.returnChannel n = { s with
      chans := (s.returnChannel n).chans, txs := (s.returnChannel n).txs
      walker := { s.walker with waiting := (s.returnChannel n).walker.waiting } } := by
  unfold State.returnChannel
  dsimp only
  split
  · rfl
  · split
    · rw [State.revive_frame]
    · rw [State.revive_frame]
    · rfl
    · rw [State.testSeek_frame]; rfl

theorem State.returnChannels_frame (l : List (Fin 8)) (s : State) :
    l.foldl State.returnChannel s = { s with
      chans := (l.foldl State.returnChannel s).chans, txs := (l.foldl State.returnChannel s).txs
      walker := { s.walker with waiting := (l.foldl State.returnChannel s).walker.waiting } } := by
  induction l generalizing s with
  | nil => rfl
  | cons n t ih =>
    rw [List.foldl_cons, ih]
    rw [State.returnChannel_frame s n]

theorem State.returnChannel_running {s : State} {n : Fin 8} (h : (s.chan n).state ≠ .halted) : s.returnChannel n = s :=
  if_pos h

/-- A HALTED channel that returns to a pass in motion (R122). -/
theorem State.returnChannel_pass {s : State} {n : Fin 8} {p : ChanState} {k : Claim} (h : (s.chan n).state = .halted)
    (hp : p = .assigned ∨ p = .probing) (hprior : (s.chan n).prior = some p) (hk : (s.chan n).claim = some k) :
    s.returnChannel n = { s with
      chans := s.chans.set n { s.chan n with
        state := p, prior := none, interrupted := none, timer := (s.chan n).timer.load (s.chan n).config s.clock }
      txs := s.txs.set n ((s.txs.get n).enqueue { kind := .release, echo := k.echo }) } := by
  rw [← State.revive_eq hk]
  unfold State.returnChannel
  dsimp only
  rw [if_neg (not_not.mpr h), hprior]
  rcases hp with rfl | rfl <;> rfl

theorem State.returnChannel_stalled {s : State} {n : Fin 8} (h : (s.chan n).state = .halted)
    (hprior : (s.chan n).prior = some .stalled) :
    s.returnChannel n = s.setChan n { s.chan n with state := .stalled, prior := (s.chan n).interrupted, interrupted := none } := by
  unfold State.returnChannel
  dsimp only
  rw [if_neg (not_not.mpr h), hprior]

theorem State.returnChannel_idle {s : State} {n : Fin 8} (h : (s.chan n).state = .halted)
    (hprior : (s.chan n).prior = some .idle) : s.returnChannel n =
      (s.setChan n { s.chan n with state := .idle, prior := none, interrupted := none }).testSeek n := by
  unfold State.returnChannel
  dsimp only
  rw [if_neg (not_not.mpr h), hprior]

/-- What one channel takes with it from INTERLOCK_CLEAR, as `v` shows it, from its place in `s` (R122). -/
structure Returned (s : State) (n : Fin 8) (v : Nat × Channel × Transmitter × Bool) : Prop where
  running : (s.chan n).state ≠ .halted → v.2.1 = s.chan n ∧ v.2.2.1 = s.txs.get n
  waiting : (s.chan n).state ≠ .halted ∨ (s.chan n).prior = some .assigned ∨ (s.chan n).prior = some .probing ∨
    (s.chan n).prior = some .stalled → v.2.2.2 = s.walker.waiting.get n
  pass : (s.chan n).state = .halted → ∀ (p : ChanState) (k : Claim), p = .assigned ∨ p = .probing →
    (s.chan n).prior = some p → (s.chan n).claim = some k →
    v.2.1 = { s.chan n with
      state := p, prior := none, interrupted := none, timer := (s.chan n).timer.load (s.chan n).config s.clock } ∧
    v.2.2.1 = (s.txs.get n).enqueue { kind := .release, echo := k.echo }
  stalled : (s.chan n).state = .halted → (s.chan n).prior = some .stalled →
    v.2.1 = { s.chan n with state := .stalled, prior := (s.chan n).interrupted, interrupted := none } ∧
    v.2.2.1 = s.txs.get n
  idle : (s.chan n).state = .halted → (s.chan n).prior = some .idle →
    v.2.1 = { s.chan n with
      state := if 0 < (s.chan n).config.priority ∧ (s.chan n).exhausted = false then .seeking else .idle
      prior := none, interrupted := none } ∧
    (v.2.2.2 = true ↔ s.walker.waiting.get n = true ∨
      (0 < (s.chan n).config.priority ∧ (s.chan n).exhausted = false)) ∧
    v.2.2.1 = s.txs.get n

theorem State.returnChannel_returned (s : State) (n : Fin 8) : Returned s n ((s.returnChannel n).atChannel n) where
  running h := by rw [State.returnChannel_running h]; exact ⟨rfl, rfl⟩
  waiting h := by
    by_cases hs : (s.chan n).state = .halted
    · have hw : ∀ x, (s.revive n x).walker = s.walker := fun x => by rw [State.revive_frame]
      show (s.returnChannel n).walker.waiting.get n = _
      unfold State.returnChannel
      dsimp only
      rw [if_neg (not_not.mpr hs)]
      rcases h.resolve_left (not_not.mpr hs) with hp | hp | hp <;> rw [hp]
      · rw [hw]
      · rw [hw]
      · rfl
    · rw [State.returnChannel_running hs]; rfl
  pass h p k hp hprior hk := by
    rw [State.returnChannel_pass h hp hprior hk]
    exact ⟨(Eight.get_set _ _ _ _).trans (if_pos rfl), (Eight.get_set _ _ _ _).trans (if_pos rfl)⟩
  stalled h hprior := by
    rw [State.returnChannel_stalled h hprior]
    exact ⟨(State.chan_setChan _ _ _ _).trans (if_pos rfl), rfl⟩
  idle h hprior := by
    have hown : ∀ c, (s.setChan n c).chan n = c := fun c => (State.chan_setChan _ _ _ _).trans (if_pos rfl)
    rw [State.returnChannel_idle h hprior]
    refine ⟨?_, ?_, ?_⟩
    · show ((s.setChan n _).testSeek n).chan n = _
      rw [State.testSeek_chan, hown]
      simp only [true_and]
      split_ifs <;> rfl
    · show ((s.setChan n _).testSeek n).walker.waiting.get n = true ↔ _
      rw [State.testSeek_waiting, hown]
      simp
    · show ((s.setChan n _).testSeek n).txs.get n = _
      rw [State.testSeek_frame]
      rfl

theorem Returned.congr {s u : State} {n : Fin 8} {v : Nat × Channel × Transmitter × Bool} (h : Returned u n v)
    (hu : u.atChannel n = s.atChannel n) : Returned s n v := by
  unfold State.atChannel at hu
  simp only [Prod.mk.injEq] at hu
  obtain ⟨h1, h2, h3, h4⟩ := hu
  obtain ⟨a, b, c, d, e⟩ := h
  rw [h2, h3] at a
  rw [h2, h4] at b
  rw [h1, h2, h3] at c
  rw [h2, h3] at d
  rw [h2, h3, h4] at e
  exact ⟨a, b, c, d, e⟩

/-- Settles O31, by the return of each channel. -/
theorem interlockClearReturns : Obligations.InterlockClearReturns := by
  unfold Obligations.InterlockClearReturns
  intro rq s h
  rw [(exec_accepted (i := .interlockClear rq) h rfl rfl).trans rfl]
  unfold State.interlockClear
  refine ⟨fun hl => by rw [if_pos hl], fun hl ha => by rw [if_neg (hl ▸ nofun), if_pos (by rw [ha]; rfl)], fun hl ha => ?_⟩
  rw [if_neg (hl ▸ nofun), if_neg (by rw [ha]; decide)]
  have hret : ∀ n, Returned s n ((eightNumbers.foldl State.returnChannel
      { s with interlock := { s.interlock with latch := false } }).atChannel n) := fun n => by
    obtain ⟨u, hu, hv⟩ := State.forEach_local State.atChannel State.returnChannel_atChannel
      { s with interlock := { s.interlock with latch := false } } n
    rw [hv]
    exact (u.returnChannel_returned n).congr hu
  have hframe := State.returnChannels_frame eightNumbers { s with interlock := { s.interlock with latch := false } }
  dsimp only
  generalize eightNumbers.foldl State.returnChannel { s with interlock := { s.interlock with latch := false } } = v
    at hret hframe ⊢
  refine ⟨_, rfl, ?_, fun n => ⟨(hret n).running, (hret n).waiting, fun hs => ⟨(hret n).pass hs, (hret n).stalled hs,
    (hret n).idle hs⟩⟩, ?_, ?_⟩
  · rw [State.answer_interlock, hframe]
  · rw [State.answer_port, hframe]; rfl
  · rw [hframe]; rfl

/-! ## The debounce and the assertion (R118, R119) -/

theorem Interlock.due_iff (k : Interlock) : k.due = true ↔ 15 ≤ k.changeCount := by
  unfold Interlock.due
  rw [decide_eq_true_eq, show Config.debounceSamples = 15 + 1 from rfl, Nat.add_le_add_iff_right]

theorem State.holdChannel_frame (s : State) (n : Fin 8) : s.holdChannel n = { s with txs := (s.holdChannel n).txs } := by
  unfold State.holdChannel
  split
  · exact State.sendClaim_frame s n .hold
  · exact State.sendClaim_frame s n .hold
  · rfl
  · rfl
  · rfl
  · rfl
  · rfl

theorem State.holdChannels_frame (l : List (Fin 8)) (s : State) :
    l.foldl State.holdChannel s = { s with txs := (l.foldl State.holdChannel s).txs } := by
  induction l generalizing s with
  | nil => rfl
  | cons n t ih =>
    rw [List.foldl_cons, ih]
    rw [State.holdChannel_frame s n]

/-- What an assertion reads and writes of a channel before it halts: the channel and its transmitter. -/
def State.atTransmitter (s : State) (n : Fin 8) : Channel × Transmitter := (s.chan n, s.txs.get n)

theorem State.holdChannel_atTransmitter (s : State) (k n : Fin 8) (h : k ≠ n) :
    (s.holdChannel k).atTransmitter n = s.atTransmitter n := by
  have hchan : (s.holdChannel k).chan n = s.chan n := by rw [State.holdChannel_frame]; rfl
  have htx : (s.holdChannel k).txs.get n = s.txs.get n := by
    unfold State.holdChannel
    split
    · exact State.sendClaim_tx s k n .hold h
    · exact State.sendClaim_tx s k n .hold h
    · rfl
    · rfl
    · rfl
    · rfl
    · rfl
  unfold State.atTransmitter
  rw [hchan, htx]

theorem State.holdChannel_still {s : State} {n : Fin 8} (h : (s.chan n).state ≠ .assigned) (h' : (s.chan n).state ≠ .probing) :
    s.holdChannel n = s := by
  unfold State.holdChannel
  split
  · next hs => exact absurd hs h
  · next hs => exact absurd hs h'
  all_goals rfl

theorem State.holdChannel_moving {s : State} {n : Fin 8} {k : Claim} (hk : (s.chan n).claim = some k)
    (h : (s.chan n).state = .assigned ∨ (s.chan n).state = .probing) : s.holdChannel n = s.send n .hold k.echo := by
  unfold State.holdChannel
  rcases h with h | h <;> rw [h] <;> exact State.sendClaim_some hk .hold

/-- The transmitters after the assertion's HOLD messages. -/
theorem State.holdChannels_tx (s : State) (n : Fin 8) :
    ((s.chan n).state ≠ .assigned → (s.chan n).state ≠ .probing →
      (eightNumbers.foldl State.holdChannel s).txs.get n = s.txs.get n) ∧
    ∀ k, (s.chan n).claim = some k → (s.chan n).state = .assigned ∨ (s.chan n).state = .probing →
      (eightNumbers.foldl State.holdChannel s).txs.get n = (s.txs.get n).enqueue { kind := .hold, echo := k.echo } := by
  obtain ⟨u, hu, hv⟩ := State.forEach_local State.atTransmitter State.holdChannel_atTransmitter s n
  obtain ⟨hchan, htx⟩ := Prod.mk.inj hu
  have hfinal : (eightNumbers.foldl State.holdChannel s).txs.get n = (u.holdChannel n).txs.get n := congrArg Prod.snd hv
  rw [hfinal, ← hchan, ← htx]
  refine ⟨fun h h' => by rw [State.holdChannel_still h h'], fun k hk h => ?_⟩
  rw [State.holdChannel_moving hk h]
  exact (Eight.get_set _ _ _ _).trans (if_pos rfl)

theorem Channel.halt_kept {c : Channel} (h : c.state = .off ∨ c.state = .halted) : c.halt = c := by
  unfold Channel.halt
  rcases h with h | h <;> rw [h]

theorem Channel.halt_resting {c : Channel} (h : c.state = .idle ∨ c.state = .seeking) :
    c.halt = { c with state := .halted, prior := some .idle } := by
  unfold Channel.halt
  rcases h with h | h <;> rw [h]

theorem Channel.halt_stalled {c : Channel} (h : c.state = .stalled) :
    c.halt = { c with state := .halted, prior := some .stalled, interrupted := c.prior } := by
  unfold Channel.halt
  rw [h]

theorem Channel.halt_moving {c : Channel} (h : c.state = .assigned ∨ c.state = .probing) :
    c.halt = { c with state := .halted, prior := some c.state, timer := c.timer.freeze } := by
  unfold Channel.halt
  rcases h with h | h <;> rw [h]

theorem State.assertInterlock_eq (s : State) : s.assertInterlock =
    { s with
      interlock := { low := true, changeCount := 0, latch := true }
      txs := (eightNumbers.foldl State.holdChannel s).txs
      chans := s.chans.map Channel.halt
      walker := s.walker.abandonAll
      notices := s.notices.post .interlock 0 } := by
  unfold State.assertInterlock
  dsimp only
  rw [State.holdChannels_frame]
  rfl

theorem exec_interlockAssertion {s : State} (h : s.held = false) (hl : s.interlock.low = false)
    (hc : s.interlock.changeCount = 15) : exec .interlockAssertion s = .next s.assertInterlock := by
  refine congrArg _ ((State.whenRunning_running h _).trans (if_pos ?_))
  rw [hl, s.interlock.due_iff.mpr (by rw [hc])]
  rfl

theorem exec_wbholdRise {s : State} (h : s.held = false) (hl : s.interlock.low = true)
    (hc : s.interlock.changeCount = 15) : exec .wbholdRise s = .next s.raiseLevel := by
  refine congrArg _ ((State.whenRunning_running h _).trans (if_pos ?_))
  rw [hl, s.interlock.due_iff.mpr (by rw [hc])]
  rfl

theorem exec_wbholdSample {s : State} (h : s.held = false) (low : Bool) :
    exec (.wbholdSample low) s = .next (s.sample low) := congrArg _ (State.whenRunning_running h _)

theorem StallTimer.freeze_running {t : StallTimer} (h : t.mode = .running) : t.freeze = { t with mode := .frozen } :=
  if_pos h

theorem StallTimer.freeze_other {t : StallTimer} (h : t.mode ≠ .running) : t.freeze = t := if_neg h

/-- Settles O32: the sample by the level and the count, the assertion by the state of each channel. -/
theorem interlockSamples : Obligations.InterlockSamples := by
  unfold Obligations.InterlockSamples
  refine ⟨fun s low hh => ⟨fun hl => ?_, fun hl hc => ?_, fun hl hc => ⟨?_, ?_⟩, fun hl hc => ?_⟩, fun s hh hl hc => ?_⟩
  · rw [exec_wbholdSample hh]
    exact congrArg _ (if_pos hl)
  · rw [exec_wbholdSample hh]
    unfold State.sample
    rw [if_neg hl, if_neg (by rw [s.interlock.due_iff]; omega)]
  · exact exec_wbholdRise hh hl hc
  · rw [exec_wbholdRise hh hl hc, exec_wbholdSample hh]
    unfold State.sample
    rw [if_neg (by rw [hl]; decide), if_pos (s.interlock.due_iff.mpr (by rw [hc])), if_neg (by decide)]
  · rw [exec_interlockAssertion hh hl hc, exec_wbholdSample hh]
    unfold State.sample
    rw [if_neg (by rw [hl]; decide), if_pos (s.interlock.due_iff.mpr (by rw [hc])), if_pos rfl]
  · refine ⟨_, exec_interlockAssertion hh hl hc, ?_⟩
    rw [State.assertInterlock_eq]
    refine ⟨rfl, rfl, rfl, fun n => ?_, rfl⟩
    obtain ⟨hstill, hmoving⟩ := s.holdChannels_tx n
    have hchan : (s.chans.map Channel.halt).get n = (s.chan n).halt := Eight.get_map _ _ _
    refine ⟨fun hs => ?_, fun hs => ?_, fun hs => ?_, fun k hk hs => ?_⟩
    · refine ⟨hchan.trans (Channel.halt_kept hs), hstill ?_ ?_⟩ <;> rcases hs with hs | hs <;> rw [hs] <;> nofun
    · refine ⟨hchan.trans (Channel.halt_resting hs), hstill ?_ ?_⟩ <;> rcases hs with hs | hs <;> rw [hs] <;> nofun
    · refine ⟨hchan.trans (Channel.halt_stalled hs), hstill ?_ ?_⟩ <;> rw [hs] <;> nofun
    · have hhalt := hchan.trans (Channel.halt_moving hs)
      have htimer : ((s.chans.map Channel.halt).get n).timer = (s.chan n).timer.freeze := by rw [hhalt]
      refine ⟨hmoving k hk hs, ?_, fun hr => htimer.trans (StallTimer.freeze_running hr),
        fun hr => htimer.trans (StallTimer.freeze_other hr)⟩
      exact hhalt.trans (by rw [← htimer]; rfl)

end Sys2Proof.Machine
end

section
/-! A claim released without outcome: ABANDON and CHANNEL_RESET (O24, O26). -/

namespace Sys2Proof.Machine

/-! ## Channels that a step leaves alone -/

theorem State.sameChannel_trans {s u v : State} {m : Fin 8} (h : s.sameChannel u m) (h' : u.sameChannel v m) :
    s.sameChannel v m := by
  obtain ⟨hc, hw, hs⟩ := h
  obtain ⟨kc, kw, ks⟩ := h'
  exact ⟨kc.trans hc, kw.trans hw, fun k hk => (ks k hk).trans (hs k hk)⟩

theorem State.signalledChannel_later {s u v : State} {m : Fin 8} (h : s.signalledChannel u m)
    (h' : u.sameChannel v m) : s.signalledChannel v m := by
  obtain ⟨hc, hw, hs⟩ := h
  obtain ⟨kc, kw, ks⟩ := h'
  exact ⟨kc.trans hc, by rw [kw]; exact hw, fun k hk => (ks k hk).trans (hs k hk)⟩

theorem State.signalledChannel_earlier {s r v : State} {m : Fin 8} (h : s.sameChannel r m)
    (h' : r.signalledChannel v m) : s.signalledChannel v m := by
  obtain ⟨hc, hw, hs⟩ := h
  obtain ⟨kc, kw, ks⟩ := h'
  refine ⟨hc ▸ kc, by rw [← hw, ← hc]; exact kw, fun k hk => (ks k hk).trans ?_⟩
  constructor
  · rintro ⟨j, hj, rfl⟩
    exact ⟨j, (hs j hk).mp hj, rfl⟩
  · rintro ⟨j, hj, rfl⟩
    exact ⟨j, (hs j hk).mpr hj, rfl⟩

theorem State.sameChannel_testSeek (s : State) {n m : Fin 8} (hm : m ≠ n) : s.sameChannel (s.testSeek n) m := by
  refine ⟨?_, ?_, fun k _ => by rw [State.testSeek_frame]⟩
  · rw [State.testSeek_chan, if_neg fun h => hm h.1.symm]
  · rw [Bool.eq_iff_iff, State.testSeek_waiting]
    simp [hm.symm]

theorem State.sameChannel_setChan (s : State) {n m : Fin 8} (hm : m ≠ n) (c : Channel) :
    s.sameChannel (s.setChan n c) m :=
  ⟨(State.chan_setChan _ _ _ _).trans (if_neg hm.symm), rfl, fun _ _ => Iff.rfl⟩

theorem State.sameChannel_abandonSeek (s : State) {n m : Fin 8} (hm : m ≠ n) : s.sameChannel (s.abandonSeek n) m :=
  State.sameChannel_of_abandon hm rfl ((Walker.abandon_waiting _ _ _).trans (if_neg hm.symm)) rfl

/-! ## What the signal, a pass's end and the seek condition leave of a channel -/

theorem Channel.signalled_eq (c : Channel) : c.signalled = { c with exhausted := false, state := c.signalled.state } := by
  unfold Channel.signalled
  split
  · rfl
  · next h => rw [← Bool.eq_false_iff.mpr h]

theorem Channel.signalled_state {c : Channel} (h : c.state ≠ .idle) : c.signalled.state = c.state := by
  unfold Channel.signalled
  split
  · exact if_neg fun hs => h hs.1
  · rfl

theorem Channel.endPass_eq (c : Channel) : c.endPass =
    { c.dropClaim with state := c.endPass.state, prior := c.endPass.prior, interrupted := c.endPass.interrupted } := by
  unfold Channel.endPass
  cases h : c.state <;> dsimp only [Channel.dropClaim]

theorem Channel.signalled_endPass (c : Channel) : c.signalled.endPass =
    { c.dropClaim with
      exhausted := false, state := c.signalled.endPass.state, prior := c.signalled.endPass.prior
      interrupted := c.signalled.endPass.interrupted } := by
  have hdrop : c.signalled.dropClaim = { c.dropClaim with exhausted := false, state := c.signalled.state } := by
    conv_lhs => rw [Channel.signalled_eq]
    rfl
  conv_lhs => rw [Channel.endPass_eq, hdrop]

theorem Channel.endPass_moving {c : Channel} (h : c.state = .assigned ∨ c.state = .probing ∨ c.state = .stalled) :
    c.endPass = { c.dropClaim with state := .idle, prior := none, interrupted := none } := by
  unfold Channel.endPass
  rcases h with h | h | h <;> rw [h]

theorem Channel.endPass_halted {c : Channel} (h : c.state = .halted) :
    c.endPass = { c.dropClaim with prior := some .idle, interrupted := none } := by
  unfold Channel.endPass
  rw [h]

theorem State.testSeek_own (s : State) (n : Fin 8) :
    (s.testSeek n).chan n = { s.chan n with state := ((s.testSeek n).chan n).state } := by
  rw [State.testSeek_chan]
  split <;> rfl

/-! ## A change of a tube at channels and walker (R37) -/

/-- A change of a tube leaves channels and walker alone, or it gives the candidates-changed signal. -/
theorem State.changeTube_quiet_or_signals (s : State) (i : Nat) (f : Tube → Tube) :
    ((s.changeTube i f).chans = s.chans ∧ (s.changeTube i f).walker = s.walker) ∨
    ((∀ n, (s.changeTube i f).chan n = (s.chan n).signalled) ∧
      (s.changeTube i f).walker.seek = s.walker.seek.map (fun k => { k with renew := true }) ∧
      ∀ n, (s.changeTube i f).walker.waiting.get n = true ↔ s.walker.waiting.get n = true ∨
        ((s.chan n).exhausted = true ∧ (s.chan n).state = .idle ∧ 0 < (s.chan n).config.priority)) := by
  by_cases h : ∃ t, s.tube i = some t ∧ t.state ≠ (f t).state ∧ (f t).state.claimable = true
  · obtain ⟨t, ht, hm, hc⟩ := h
    exact .inr (s.changeTube_signals i f t ht hm hc)
  · refine .inl (s.changeTube_quiet i f fun t ht => ?_)
    by_cases hm : t.state = (f t).state
    · exact .inl hm
    · exact .inr (Bool.eq_false_iff.mpr fun hc => h ⟨t, ht, hm, hc⟩)

theorem State.changeTube_signalledChannel {s : State} {i : Nat} {f : Tube → Tube} {t : Tube} (ht : s.tube i = some t)
    (hm : t.state ≠ (f t).state) (hc : (f t).state.claimable = true) (n : Fin 8) :
    s.signalledChannel (s.changeTube i f) n := by
  obtain ⟨h1, h2, h3⟩ := s.changeTube_signals i f t ht hm hc
  exact State.signalledChannel_of h1 h2 h3 n

/-! ## The release (R25, R46) -/

theorem Tube.releaseTo_claimed {t : Tube} (h : t.state = .claimed) (p : TubeState) :
    t.releaseTo p = { t with claim := none, state := p } := by
  unfold Tube.releaseTo
  rw [h]

theorem Tube.releaseTo_inTest {t : Tube} (h : t.state = .inTest) (p : TubeState) :
    t.releaseTo p = { t with claim := none, state := .retest } := by
  unfold Tube.releaseTo
  rw [h]

/-- The release of a tube under test, or of a claimed one to a claimable state, moves it to a claimable state. -/
theorem Tube.releaseTo_moves {t : Tube} {p : TubeState}
    (h : t.state = .inTest ∨ (t.state = .claimed ∧ p.claimable = true)) :
    t.state ≠ (t.releaseTo p).state ∧ (t.releaseTo p).state.claimable = true := by
  rcases h with h | ⟨h, hp⟩
  · rw [Tube.releaseTo_inTest h, h]
    exact ⟨nofun, rfl⟩
  · rw [Tube.releaseTo_claimed h, h]
    refine ⟨?_, hp⟩
    rcases (TubeState.claimable_iff p).mp hp with hx | hx <;> rw [hx] <;> nofun

theorem State.releaseClaim_some {s : State} {n : Fin 8} {k : Claim} (h : (s.chan n).claim = some k) :
    s.releaseClaim n = (s.setChan n (s.chan n).dropClaim).changeTube k.tube (Tube.releaseTo k.prior) := by
  unfold State.releaseClaim
  rw [h]

theorem State.releaseClaim_none {s : State} {n : Fin 8} (h : (s.chan n).claim = none) : s.releaseClaim n = s := by
  unfold State.releaseClaim
  rw [h]

section Release

variable {s : State} {n : Fin 8} {k : Claim} (hk : (s.chan n).claim = some k)
include hk

theorem State.releaseClaim_tube (j : Nat) : (s.releaseClaim n).tube j =
    if k.tube = j then (s.tube j).map (Tube.releaseTo k.prior) else s.tube j := by
  rw [State.releaseClaim_some hk, State.changeTube_tube]
  rfl

theorem State.releaseClaim_completes : s.completes (s.releaseClaim n) := by
  rw [State.releaseClaim_some hk]
  exact State.changeTube_completes (s.setChan n (s.chan n).dropClaim) k.tube _

theorem State.releaseClaim_watched {u : Tube} (hu : s.tube k.tube = some u)
    (hr : u.state = .inTest ∨ (u.state = .claimed ∧ k.prior.claimable = true)) :
    s.watched (s.releaseClaim n) k.tube := by
  rw [State.releaseClaim_some hk]
  exact State.watched_of_map (r := s.setChan n (s.chan n).dropClaim)
    (State.changeTube_watched _ k.tube _ u hu (Tube.releaseTo_moves hr).1 rfl) rfl

theorem State.releaseClaim_signals {u : Tube} (hu : s.tube k.tube = some u)
    (hr : u.state = .inTest ∨ (u.state = .claimed ∧ k.prior.claimable = true)) (m : Fin 8) :
    (s.setChan n (s.chan n).dropClaim).signalledChannel (s.releaseClaim n) m := by
  rw [State.releaseClaim_some hk]
  exact State.changeTube_signalledChannel (s := s.setChan n (s.chan n).dropClaim) hu (Tube.releaseTo_moves hr).1 (Tube.releaseTo_moves hr).2 m

end Release

/-! ## ABANDON (R59) -/

/-- The part after an ABANDON's release and the channel's new state, before the seek condition (R59). -/
def State.abandoned (s : State) (n : Fin 8) (k : Claim) : State :=
  let s1 := (s.send n .cancel k.echo).releaseClaim n
  s1.setChan n (s1.chan n).endPass

theorem State.abandonPass_some {s : State} {n : Fin 8} {k : Claim} (h : (s.chan n).claim = some k) :
    s.abandonPass n = ((s.abandoned n k).testSeek n).answer .abandon .ok [] := by
  unfold State.abandonPass
  rw [h]
  rfl

theorem State.abandonPass_none {s : State} {n : Fin 8} (h : (s.chan n).claim = none) :
    s.abandonPass n = s.answer .abandon .noClaim [] := by
  unfold State.abandonPass
  rw [h]

/-- Settles O24, by the release and the channel's new state behind it. -/
theorem abandonReleases : Obligations.AbandonReleases := by
  unfold Obligations.AbandonReleases
  intro rq s n h
  rw [exec_at (i := .abandon rq n.val) State.abandonPass h rfl (numberInRange_val n)]
  refine ⟨fun hc => by rw [State.abandonPass_none hc], fun k u hk hu hstate hprior => ⟨_, rfl, ?_⟩⟩
  rw [State.abandonPass_some hk]
  have hr : u.state = .inTest ∨ (u.state = .claimed ∧ k.prior.claimable = true) :=
    hstate.symm.imp_right fun h => ⟨h, hprior⟩
  have hk' : ((s.send n .cancel k.echo).chan n).claim = some k := hk
  have hsig := State.releaseClaim_signals hk' hu hr
  have hwatched : s.watched ((s.send n .cancel k.echo).releaseClaim n) k.tube := State.releaseClaim_watched hk' hu hr
  have hcompletes : s.completes ((s.send n .cancel k.echo).releaseClaim n) := State.releaseClaim_completes hk'
  have hreleased : ((s.send n .cancel k.echo).releaseClaim n).chan n = (s.chan n).dropClaim.signalled := by
    rw [(hsig n).1, State.chan_setChan, if_pos rfl]
    rfl
  have hown : (s.abandoned n k).chan n = (s.chan n).dropClaim.signalled.endPass := by
    unfold State.abandoned
    dsimp only
    rw [State.chan_setChan, if_pos rfl, hreleased]
  have hchan : ((s.abandoned n k).testSeek n).chan n = { (s.chan n).dropClaim with
      exhausted := false
      state := (((s.abandoned n k).testSeek n).chan n).state
      prior := (s.chan n).dropClaim.signalled.endPass.prior
      interrupted := (s.chan n).dropClaim.signalled.endPass.interrupted } := by
    conv_lhs => rw [State.testSeek_own, hown, Channel.signalled_endPass]
    rfl
  have hmoving : (s.chan n).state ≠ .idle → (s.chan n).dropClaim.signalled.state = (s.chan n).state :=
    fun hne => Channel.signalled_state (c := (s.chan n).dropClaim) hne
  have hframe : ((s.abandoned n k).testSeek n) = { s with
      map := { s.map with
        tubes := ((s.abandoned n k).testSeek n).map.tubes
        census := ((s.abandoned n k).testSeek n).map.census
        armed := ((s.abandoned n k).testSeek n).map.armed }
      notices := ((s.abandoned n k).testSeek n).notices
      chans := ((s.abandoned n k).testSeek n).chans
      walker := { s.walker with
        waiting := ((s.abandoned n k).testSeek n).walker.waiting, seek := ((s.abandoned n k).testSeek n).walker.seek }
      txs := s.txs.set n ((s.txs.get n).enqueue { kind := .cancel, echo := k.echo }) } := by
    rw [State.testSeek_frame]
    unfold State.abandoned
    dsimp only
    rw [State.releaseClaim_frame]
    rfl
  have hmap : ((s.abandoned n k).testSeek n).map = ((s.send n .cancel k.echo).releaseClaim n).map ∧
      ((s.abandoned n k).testSeek n).notices = ((s.send n .cancel k.echo).releaseClaim n).notices := by
    rw [State.testSeek_frame]
    exact ⟨rfl, rfl⟩
  have htube : ∀ j, ((s.abandoned n k).testSeek n).tube j =
      if k.tube = j then (s.tube j).map (Tube.releaseTo k.prior) else s.tube j := fun j => by
    refine Eq.trans ?_ (State.releaseClaim_tube hk' j)
    unfold State.tube
    rw [hmap.1]
  have hsame : ∀ m, m ≠ n → s.signalledChannel ((s.abandoned n k).testSeek n) m := fun m hm =>
    State.signalledChannel_later
      (State.signalledChannel_earlier (r := (s.send n .cancel k.echo).setChan n (s.chan n).dropClaim)
        (State.sameChannel_setChan _ hm _) (hsig m))
      (State.sameChannel_trans (State.sameChannel_setChan _ hm _) (State.sameChannel_testSeek _ hm))
  have hidle : (s.chan n).state = .assigned ∨ (s.chan n).state = .probing ∨ (s.chan n).state = .stalled →
      (s.abandoned n k).chan n = { (s.chan n).dropClaim with
        exhausted := false, state := .idle, prior := none, interrupted := none } := fun hs => by
    have hne : (s.chan n).state ≠ .idle := by rcases hs with hx | hx | hx <;> rw [hx] <;> decide
    rw [hown, Channel.endPass_moving (by rw [hmoving hne]; exact hs), Channel.signalled_eq]
    rfl
  refine ⟨?_, ?_, fun j hj => (htube j).trans (if_neg hj.symm), ?_, ?_, ?_⟩
  · rw [State.answer_txs, hframe]
  · refine (htube k.tube).trans ?_
    rw [if_pos rfl, hu, Option.map_some]
    rcases hstate with hs | hs
    · rw [Tube.releaseTo_claimed hs, if_pos hs]
    · rw [Tube.releaseTo_inTest hs, if_neg (by rw [hs]; decide)]
  · exact State.watched_of_notices hwatched hmap.2
  · exact State.completes_of_same hcompletes hmap.1 hmap.2
  · generalize hv : (s.abandoned n k).testSeek n = v at *
    have hfields : (v.answer .abandon .ok []).chan n = _ := hchan
    rw [hfields]
    refine ⟨rfl, rfl, rfl, rfl, rfl, rfl, rfl, rfl, rfl, rfl, fun hs => ?_, fun hs => ?_, hsame, ?_, ?_⟩
    · have hi := hidle hs
      have hne : (s.chan n).state ≠ .idle := by rcases hs with hx | hx | hx <;> rw [hx] <;> decide
      rw [Channel.endPass_moving (by rw [hmoving hne]; exact hs)]
      refine ⟨rfl, rfl, ?_, fun hp => ?_⟩
      · rw [← hv, State.testSeek_chan, hi]
        by_cases hp : 0 < (s.chan n).config.priority
        · rw [if_pos hp, if_pos ⟨rfl, rfl, hp, rfl⟩]
        · rw [if_neg hp, if_neg fun hx => hp hx.2.2.1]
      · rw [State.answer_walker, ← hv, State.testSeek_waiting, hi]
        exact .inr ⟨rfl, rfl, hp, rfl⟩
    · have hne : (s.chan n).state ≠ .idle := by rw [hs]; decide
      have hhalted := hmoving hne
      rw [Channel.endPass_halted (hhalted.trans hs)]
      refine ⟨?_, rfl, rfl⟩
      rw [← hv, State.testSeek_chan, hown, Channel.endPass_halted (hhalted.trans hs), if_neg]
      · exact hhalted.trans hs
      · exact fun hi => absurd (hi.2.1.symm.trans (hhalted.trans hs)) (by decide)
    · rw [State.answer_port, hframe]
      rfl
    · rw [hframe]
      rfl

/-! ## CHANNEL_RESET (R61) -/

/-- The part after CHANNEL_RESET's seek and claim, before channel, cursor and link are cleared (R61). -/
def State.cleared (s : State) (n : Fin 8) : State := ((s.abandonSeek n).sendClaim n .cancel).releaseClaim n

/-- The channel that CHANNEL_RESET leaves. -/
def Channel.reset (c : Channel) : Channel :=
  { c.dropClaim with state := .off, prior := none, interrupted := none, exhausted := false }

theorem State.channelReset_eq (s : State) (n : Fin 8) : s.channelReset n =
    State.answer { s.cleared n with
      chans := (s.cleared n).chans.set n ((s.cleared n).chan n).reset
      walker := { (s.cleared n).walker with cursors := (s.cleared n).walker.cursors.set n none }
      links := (s.cleared n).links.set n ((s.cleared n).link n).restart } .channelReset .ok [] := rfl

theorem State.cleared_none {s : State} {n : Fin 8} (h : (s.chan n).claim = none) : s.cleared n = s.abandonSeek n := by
  have hsend : (s.abandonSeek n).sendClaim n .cancel = s.abandonSeek n := by
    unfold State.sendClaim
    rw [show ((s.abandonSeek n).chan n).claim = none from h]
  unfold State.cleared
  rw [hsend, State.releaseClaim_none (s := s.abandonSeek n) h]

theorem State.cleared_some {s : State} {n : Fin 8} {k : Claim} (h : (s.chan n).claim = some k) :
    s.cleared n = ((s.abandonSeek n).send n .cancel k.echo).releaseClaim n := by
  unfold State.cleared
  rw [State.sendClaim_some (s := s.abandonSeek n) h]

/-- CHANNEL_RESET's claim dropped by its channel, before the tube takes the release. -/
def State.dropped (s : State) (n : Fin 8) (k : Claim) : State :=
  ((s.abandonSeek n).send n .cancel k.echo).setChan n (s.chan n).dropClaim

theorem State.cleared_changes {s : State} {n : Fin 8} {k : Claim} (h : (s.chan n).claim = some k) :
    s.cleared n = (s.dropped n k).changeTube k.tube (Tube.releaseTo k.prior) := by
  rw [State.cleared_some h, State.releaseClaim_some (s := (s.abandonSeek n).send n .cancel k.echo) h]
  rfl

theorem State.cleared_frame (s : State) (n : Fin 8) : s.cleared n = { s with
    map := { s.map with
      tubes := (s.cleared n).map.tubes, census := (s.cleared n).map.census, armed := (s.cleared n).map.armed }
    notices := (s.cleared n).notices, chans := (s.cleared n).chans
    walker := { s.walker with waiting := (s.cleared n).walker.waiting, seek := (s.cleared n).walker.seek }
    txs := (s.cleared n).txs } := by
  unfold State.cleared
  rw [State.releaseClaim_frame, State.sendClaim_frame]
  rfl

/-- What the release has left of the channel, the walker's seek and its waiting mark (R46, R61). -/
theorem State.cleared_own (s : State) (n : Fin 8) :
    (((s.cleared n).chan n).config = (s.chan n).config ∧ ((s.cleared n).chan n).cal = (s.chan n).cal ∧
      ((s.cleared n).chan n).gapMarks = (s.chan n).gapMarks) ∧
    (∀ j, (s.cleared n).walker.seek = some j → j.chan ≠ n) ∧
    ((s.chan n).claim = none ∨ (s.chan n).state ≠ .idle → (s.cleared n).walker.waiting.get n = false) := by
  have hwait : (s.walker.abandon n).waiting.get n = false := (Walker.abandon_waiting _ _ _).trans (if_pos rfl)
  cases hc : (s.chan n).claim with
  | none =>
    rw [State.cleared_none hc]
    exact ⟨⟨rfl, rfl, rfl⟩, fun j hj => Walker.abandon_seek_ne hj, fun _ => hwait⟩
  | some k =>
    have hown : (s.dropped n k).chan n = (s.chan n).dropClaim := (State.chan_setChan _ _ _ _).trans (if_pos rfl)
    rw [State.cleared_changes hc]
    rcases (s.dropped n k).changeTube_quiet_or_signals k.tube (Tube.releaseTo k.prior) with
      ⟨hchans, hwalker⟩ | ⟨hchan, hseek, hwaiting⟩
    · have hn := (congrArg (fun v => Eight.get v n) hchans).trans hown
      refine ⟨?_, ?_, fun _ => ?_⟩
      · exact ⟨(congrArg Channel.config hn).trans rfl, (congrArg Channel.cal hn).trans rfl,
          (congrArg Channel.gapMarks hn).trans rfl⟩
      · rw [hwalker]
        exact fun j hj => Walker.abandon_seek_ne hj
      · rw [hwalker]
        exact hwait
    · have hn := (hchan n).trans ((congrArg Channel.signalled hown).trans (Channel.signalled_eq _))
      refine ⟨?_, fun j hj => ?_, fun hs => ?_⟩
      · exact ⟨(congrArg Channel.config hn).trans rfl, (congrArg Channel.cal hn).trans rfl,
          (congrArg Channel.gapMarks hn).trans rfl⟩
      · obtain ⟨i, hi, rfl⟩ := Option.map_eq_some_iff.mp (hseek.symm.trans hj)
        exact Walker.abandon_seek_ne (j := i) hi
      · refine Bool.eq_false_iff.mpr fun hw => ?_
        rcases (hwaiting n).mp hw with hx | ⟨-, hx, -⟩
        · exact nomatch hwait.symm.trans hx
        · rw [hown] at hx
          exact hs.elim nofun fun hne => hne hx

/-- Settles O26, by the channel without a claim and the channel that held one. -/
theorem channelResetClears : Obligations.ChannelResetClears := by
  unfold Obligations.ChannelResetClears
  intro rq s n h
  rw [exec_at (i := .channelReset rq n.val) State.channelReset h rfl (numberInRange_val n), State.channelReset_eq]
  have hframe := s.cleared_frame n
  obtain ⟨⟨hconfig, hcal, hgaps⟩, hseek, hwait⟩ := s.cleared_own n
  have hchan : ∀ m, ((s.cleared n).chans.set n ((s.cleared n).chan n).reset).get m =
      if n = m then ((s.cleared n).chan n).reset else (s.cleared n).chan m := fun m => Eight.get_set _ _ _ _
  have hown := (hchan n).trans (if_pos rfl)
  have hother : ∀ m, m ≠ n → ∀ u : State, u.sameChannel (s.cleared n) m →
      u.sameChannel (State.answer { s.cleared n with
        chans := (s.cleared n).chans.set n ((s.cleared n).chan n).reset
        walker := { (s.cleared n).walker with cursors := (s.cleared n).walker.cursors.set n none }
        links := (s.cleared n).links.set n ((s.cleared n).link n).restart } .channelReset .ok []) m :=
    fun m hm u hu => State.sameChannel_trans hu ⟨(hchan m).trans (if_neg hm.symm), rfl, fun _ _ => Iff.rfl⟩
  have hsignalled : ∀ m, m ≠ n → s.signalledChannel (s.cleared n) m →
      s.signalledChannel (State.answer { s.cleared n with
        chans := (s.cleared n).chans.set n ((s.cleared n).chan n).reset
        walker := { (s.cleared n).walker with cursors := (s.cleared n).walker.cursors.set n none }
        links := (s.cleared n).links.set n ((s.cleared n).link n).restart } .channelReset .ok []) m :=
    fun m hm hu => State.signalledChannel_later hu ⟨(hchan m).trans (if_neg hm.symm), rfl, fun _ _ => Iff.rfl⟩
  refine ⟨_, rfl, congrArg Channel.state hown, congrArg Channel.prior hown, congrArg Channel.interrupted hown,
    congrArg Channel.claim hown, congrArg (fun c => c.timer.mode) hown, congrArg (fun c => c.timer.count) hown,
    congrArg Channel.lastCount hown, congrArg Channel.exhausted hown, (congrArg Channel.config hown).trans hconfig,
    (congrArg Channel.cal hown).trans hcal, congrArg Channel.filing hown, congrArg Channel.overtravelMarks hown,
    (congrArg Channel.gapMarks hown).trans hgaps, ?_, ?_, ?_, hseek, hwait, fun hc => ?none, fun k u hk hu => ?some,
    ?completes, ?_, ?_, ?_⟩
  case none =>
    have hquiet : ∀ m, m ≠ n → s.sameChannel (s.cleared n) m := fun m hm => by
      rw [State.cleared_none hc]; exact State.sameChannel_abandonSeek s hm
    refine ⟨?_, ?_, ?_, fun m hm => hother m hm s (hquiet m hm)⟩
    · rw [State.answer_txs, State.cleared_none hc]; rfl
    · rw [State.answer_map, State.cleared_none hc]; rfl
    · rw [State.answer_notices, State.cleared_none hc]; rfl
  case some =>
    have hk' : (((s.abandonSeek n).send n .cancel k.echo).chan n).claim = some k := hk
    have htube : ∀ j, (s.cleared n).tube j = if k.tube = j then (s.tube j).map (Tube.releaseTo k.prior) else s.tube j :=
      fun j => by rw [State.cleared_some hk]; exact State.releaseClaim_tube hk' j
    refine ⟨?_, fun hs => ?_, fun hs => ?_, fun hr => ⟨?_, fun m hm => hsignalled m hm ?_⟩, fun j hj => ?_⟩
    · rw [State.answer_txs, State.cleared_some hk, State.releaseClaim_frame]; rfl
    · refine (htube k.tube).trans ?_
      rw [if_pos rfl, hu, Option.map_some, Tube.releaseTo_claimed hs]
    · refine (htube k.tube).trans ?_
      rw [if_pos rfl, hu, Option.map_some, Tube.releaseTo_inTest hs]
    · refine State.watched_of_notices (u := s.cleared n) ?_ rfl
      rw [State.cleared_some hk]
      exact State.releaseClaim_watched hk' hu hr
    · rw [State.cleared_some hk]
      exact State.signalledChannel_earlier (State.sameChannel_trans (State.sameChannel_abandonSeek s hm)
        (State.sameChannel_setChan ((s.abandonSeek n).send n .cancel k.echo) hm _)) (State.releaseClaim_signals hk' hu hr m)
    · exact (htube j).trans (if_neg hj.symm)
  case completes =>
    refine State.completes_of_same (u := s.cleared n) ?_ rfl rfl
    cases hc : (s.chan n).claim with
    | none =>
      rw [State.cleared_none hc]
      exact State.completes_same ⟨rfl, rfl⟩ rfl fun _ hm _ => hm
    | some k =>
      rw [State.cleared_some hc]
      exact State.releaseClaim_completes (s := (s.abandonSeek n).send n .cancel k.echo) hc
  all_goals
    rw [hframe]
    rfl

end Sys2Proof.Machine
end

section
/-! Commands on one tube (O33, O34) and the evaluation rule (O40). -/

namespace Sys2Proof.Machine

/-! ## PLUG_TUBE (R34, R35) -/

theorem exec_plugTube {rq : Requester} {s : State} {name : TubeName} (h : s.takes .plugTube rq = true)
    (hn : name.inRange = true) : exec (.plugTube rq name) s = .next (s.plugTube name) :=
  (exec_accepted (i := .plugTube rq name) h rfl hn).trans rfl

theorem State.plugTube_found {s : State} {name : TubeName} {i : Nat} {t : Tube} (hf : s.findNamed name = some (i, t)) :
    s.plugTube name =
      if t.state = .claimed ∨ t.state = .inTest then s.answer .plugTube .tubeBusy []
      else if t.state = .plugged then s.answer .plugTube .state []
      else ((t.entries.foldl State.retire s).changeTube i (Tube.plug s.map.campaign)).answer .plugTube .ok
        (byte1 t.entries.length ++ absentFF (depthMax t.history t.worstFinal) ++ byte2 s.map.campaign) := by
  unfold State.plugTube
  rw [hf]

/-- What a retirement of entries and a change of their tube leave, from `s` (R35, R156). -/
theorem State.retireChange_spec (s : State) (l : List Nat) (i : Nat) (f : Tube → Tube) :
    s.Retired ((l.foldl State.retire s).changeTube i f) l ∧
    s.completes ((l.foldl State.retire s).changeTube i f) ∧
    (∀ j, ((l.foldl State.retire s).changeTube i f).tube j = if i = j then (s.tube j).map f else s.tube j) ∧
    ((l.foldl State.retire s).changeTube i f).seats = (l.foldl State.retire s).seats := by
  have hr := State.retireList_frame l s
  refine ⟨(State.retireList_retired l s).later (by rw [State.changeTube_frame]) fun _ hP hn =>
      State.changeTube_notices hP _ _ _ hn,
    State.completes_earlier (State.changeTube_completes _ i f) (by rw [hr]) (by rw [hr]; exact ⟨rfl, rfl⟩) (by rw [hr])
      (State.postsOnly_quiet (State.retireList_postsOnly l s) (by decide)), fun j => ?_, by rw [State.changeTube_frame]⟩
  rw [State.changeTube_tube]
  unfold State.tube
  rw [hr]

/-- Settles O33, by the refusals in order and the retirement of the tube's entries. -/
theorem plugTubePlugs : Obligations.PlugTubePlugs := by
  unfold Obligations.PlugTubePlugs
  intro rq s name h hn
  rw [exec_plugTube h hn]
  refine ⟨fun hf => ?_, fun i t hf => ?_⟩
  · unfold State.plugTube
    rw [hf]
  · rw [State.plugTube_found hf]
    have ht : s.tube i = some t := State.findNamed_tube hf
    refine ⟨fun hb => by rw [if_pos hb], fun hp => ?_, fun hc hi hp => ?_⟩
    · rw [if_neg (by rw [hp]; decide), if_pos hp]
    · rw [if_neg (not_or.mpr ⟨hc, hi⟩), if_neg hp]
      obtain ⟨hret, hcompletes, htube, hseats⟩ := s.retireChange_spec t.entries i (Tube.plug s.map.campaign)
      have hr := State.retireList_frame t.entries s
      have htr : (t.entries.foldl State.retire s).tube i = some t := by unfold State.tube; rw [hr]; exact ht
      have hquiet := State.changeTube_quiet (t.entries.foldl State.retire s) i (Tube.plug s.map.campaign)
        fun _ _ => .inr rfl
      refine ⟨_, rfl, ?_, fun j hj => (htube j).trans (if_neg hj.symm), ?_, State.completes_of_same hcompletes rfl rfl,
        hret.gone, hret.kept, hret.free, hret.armed, hret.told, fun n e k hne he hk => ?_, ?_, ?_⟩
      · refine (htube i).trans ?_
        rw [if_pos rfl, ht]
        rfl
      · exact State.watched_of_notices (State.watched_of_map (State.changeTube_watched _ i _ t htr hp rfl) (by rw [hr])) rfl
      · rw [State.answer_seats, hseats]
        exact (State.retireList_spec t.entries s).2.2.2.2 n e k hne he hk
      · rw [State.answer_port, State.changeTube_frame, hr]
        rfl
      · conv_lhs => rw [State.changeTube_frame, hquiet.1, hquiet.2, hr]
        rw [show ((t.entries.foldl State.retire s).changeTube i (Tube.plug s.map.campaign)).answer .plugTube .ok
          (byte1 t.entries.length ++ absentFF (depthMax t.history t.worstFinal) ++ byte2 s.map.campaign) = _ from
          congrArg (fun v : State => v.answer .plugTube .ok
            (byte1 t.entries.length ++ absentFF (depthMax t.history t.worstFinal) ++ byte2 s.map.campaign))
            (State.changeTube_frame _ _ _), hr]
        rfl

/-! ## UNBLOCK_TUBE and REQUEST_RETEST (R32, R33) -/

theorem State.signalsFrom_answer {s u : State} {i : Nat} (h : s.signalsFrom u i) (c : Command) (k : Status) (l : List Byte) :
    s.signalsFrom (u.answer c k l) i := by
  obtain ⟨htubes, hsignals, hcompletes, hframe⟩ := h
  exact ⟨htubes, hsignals, State.completes_of_same hcompletes rfl rfl,
    (congrArg (fun v : State => { v with port := (u.answer c k l).port }) hframe).trans rfl⟩

/-- A tube moved to RETEST, answered (R32, R33). -/
theorem State.changeTube_retest {s : State} {i : Nat} {t : Tube} {f : Tube → Tube} (ht : s.tube i = some t)
    (hm : t.state ≠ .retest) (hf : (f t).state = .retest) (hp : (f t).pos = t.pos) (c : Command) (k : Status)
    (l : List Byte) : ((s.changeTube i f).answer c k l).tube i = some (f t) ∧
      s.signalsFrom ((s.changeTube i f).answer c k l) i ∧ s.watched ((s.changeTube i f).answer c k l) i ∧
      ((s.changeTube i f).answer c k l).store = s.store ∧
      ((s.changeTube i f).answer c k l).port.response =
        some { command := c.code, status := k, overrun := s.port.overrun, body := l } := by
  have hmoved : t.state ≠ (f t).state := by rw [hf]; exact hm
  refine ⟨?_, State.signalsFrom_answer (s.changeTube_signalsFrom i f t ht hmoved (by rw [hf]; rfl)) c k l,
    State.watched_of_notices (s.changeTube_watched i f t ht hmoved hp) rfl, ?_, ?_⟩
  · refine (s.changeTube_tube i i f).trans ?_
    rw [if_pos rfl, ht]
    rfl
  · rw [State.answer_store, State.changeTube_frame]
  · rw [State.answer_port, State.changeTube_frame]

theorem exec_unblockTube {rq : Requester} {s : State} {name : TubeName} (h : s.takes .unblockTube rq = true)
    (hn : name.inRange = true) : exec (.unblockTube rq name) s = .next (s.unblockTube name) :=
  (exec_accepted (i := .unblockTube rq name) h rfl hn).trans rfl

theorem exec_requestRetest {rq : Requester} {s : State} {name : TubeName} (h : s.takes .requestRetest rq = true)
    (hn : name.inRange = true) : exec (.requestRetest rq name) s = .next (s.requestRetest name) :=
  (exec_accepted (i := .requestRetest rq name) h rfl hn).trans rfl

theorem State.unblockTube_found {s : State} {name : TubeName} {i : Nat} {t : Tube} (hf : s.findNamed name = some (i, t)) :
    s.unblockTube name = if t.state ≠ .blocked then s.answer .unblockTube .state []
      else (s.changeTube i Tube.unblock).answer .unblockTube .ok [] := by
  unfold State.unblockTube
  rw [hf]

theorem State.requestRetest_found {s : State} {name : TubeName} {i : Nat} {t : Tube}
    (hf : s.findNamed name = some (i, t)) : s.requestRetest name =
      if !t.state.retestable then s.answer .requestRetest .state []
      else if s.store.resolving t.entries then s.answer .requestRetest .held []
      else (s.changeTube i Tube.retest).answer .requestRetest .ok (byte1 TubeState.retest.code) := by
  unfold State.requestRetest
  rw [hf]

theorem TubeState.retestable_iff (x : TubeState) :
    x.retestable = true ↔ x = .tested ∨ x = .underReview ∨ x = .cleared := by
  cases x <;> simp [TubeState.retestable]

theorem Store.resolving_iff (st : Store) (l : List Nat) :
    st.resolving l = true ↔ ∃ n ∈ l, ∃ e, st.entry n = some e ∧ e.status = .resolving := by
  unfold Store.resolving
  rw [List.any_eq_true]
  constructor
  · rintro ⟨⟨n, e⟩, hm, hs⟩
    obtain ⟨hn, he⟩ := (Store.mem_listed st l _).mp hm
    exact ⟨n, hn, e, he, of_decide_eq_true hs⟩
  · rintro ⟨n, hn, e, he, hs⟩
    exact ⟨(n, e), (Store.mem_listed st l _).mpr ⟨hn, he⟩, decide_eq_true hs⟩

/-- Settles O34, by the two commands' refusals in order and the tube's move to RETEST. -/
theorem unblockAndRetest : Obligations.UnblockAndRetest := by
  unfold Obligations.UnblockAndRetest
  refine fun rq s name hn => ⟨fun h => ?unblock, fun h => ?retest⟩
  case unblock =>
    rw [exec_unblockTube h hn]
    refine ⟨fun hf => by unfold State.unblockTube; rw [hf], fun i t hf => ?_⟩
    rw [State.unblockTube_found hf]
    refine ⟨fun hs => by rw [if_pos hs], fun hs => ?_⟩
    rw [if_neg (not_not.mpr hs)]
    obtain ⟨htube, hsignals, hwatched, -, hresponse⟩ := State.changeTube_retest (f := Tube.unblock)
      (State.findNamed_tube hf) (by rw [hs]; decide) rfl rfl .unblockTube .ok []
    exact ⟨_, rfl, htube, hsignals, hwatched, hresponse⟩
  case retest =>
    rw [exec_requestRetest h hn]
    refine ⟨fun hf => by unfold State.requestRetest; rw [hf], fun i t hf => ?_⟩
    rw [State.requestRetest_found hf]
    refine ⟨fun h1 h2 h3 => ?_, fun hs => ?_⟩
    · have hno : t.state.retestable = false := by
        rw [Bool.eq_false_iff, ne_eq, TubeState.retestable_iff]
        exact not_or.mpr ⟨h1, not_or.mpr ⟨h2, h3⟩⟩
      rw [if_pos (by rw [hno]; rfl)]
    · rw [if_neg (by rw [(TubeState.retestable_iff _).mpr hs]; decide)]
      refine ⟨fun hres => by rw [if_pos ((Store.resolving_iff _ _).mpr hres)], fun hres => ?_⟩
      have hno : ¬ s.store.resolving t.entries = true := by
        rw [Store.resolving_iff]
        rintro ⟨n, hm, e, he, hst⟩
        exact hres n hm e he hst
      rw [if_neg hno]
      exact ⟨_, rfl, State.changeTube_retest (f := Tube.retest) (State.findNamed_tube hf)
        (by rcases hs with hx | hx | hx <;> rw [hx] <;> decide) rfl rfl .requestRetest .ok [8#8]⟩

/-! ## The evaluation rule (R175, R176) -/

theorem Entry.finalDepth_iff (e : Entry) (d : Nat) :
    e.finalDepth = some d ↔ e.status = .final ∧ e.outcome = some (.depth d) := by
  unfold Entry.finalDepth
  split
  · next hs ho => rw [ho, hs]; simp
  · next hno => exact ⟨nofun, fun ⟨hs, ho⟩ => absurd ho (hno d hs)⟩

theorem Entry.callsPlug_iff (limit : Nat) (e : Entry) : e.callsPlug limit = true ↔ e.status = .final ∧
    (e.outcome = some .nonQuantifiable ∨ ∃ d, e.outcome = some (.depth d) ∧ limit ≤ d) := by
  unfold Entry.callsPlug
  split
  · next hs ho => rw [ho, hs]; simp
  · next d hs ho => rw [ho, hs]; simp
  · next hno hd =>
    refine ⟨nofun, ?_⟩
    rintro ⟨hs, ho | ⟨d, ho, -⟩⟩
    · exact absurd ho (hno hs)
    · exact absurd ho (hd d hs)

theorem worstFinalDepth_cons (e : Entry) (l : List Entry) :
    worstFinalDepth (e :: l) = depthMax e.finalDepth (worstFinalDepth l) := rfl

theorem worstFinalDepth_eq_none (l : List Entry) : worstFinalDepth l = none ↔ ∀ e ∈ l, e.finalDepth = none := by
  induction l with
  | nil => simp [worstFinalDepth]
  | cons e l ih => rw [worstFinalDepth_cons, depthMax_eq_none, ih, List.forall_mem_cons]

theorem worstFinalDepth_eq_some (l : List Entry) (d : Nat) : worstFinalDepth l = some d ↔
    (∃ e ∈ l, e.finalDepth = some d) ∧ ∀ e ∈ l, ∀ x, e.finalDepth = some x → x ≤ d := by
  induction l generalizing d with
  | nil => simp [worstFinalDepth]
  | cons e l ih =>
    rw [worstFinalDepth_cons, depthMax_eq_some, List.forall_mem_cons]
    have hbound : (∀ x, worstFinalDepth l = some x → x ≤ d) ↔ ∀ f ∈ l, ∀ x, f.finalDepth = some x → x ≤ d := by
      constructor
      · intro hw f hf x hx
        cases hl : worstFinalDepth l with
        | none => exact nomatch ((worstFinalDepth_eq_none l).mp hl f hf).symm.trans hx
        | some y => exact Nat.le_trans (((ih y).mp hl).2 f hf x hx) (hw y hl)
      · intro hall x hx
        obtain ⟨⟨f, hf, hfx⟩, -⟩ := (ih x).mp hx
        exact hall f hf x hfx
    constructor
    · rintro ⟨hd, hall⟩
      refine ⟨?_, fun x hx => hall x (.inl hx), hbound.mp fun x hx => hall x (.inr hx)⟩
      rcases hd with hd | hd
      · exact ⟨e, List.mem_cons_self, hd⟩
      · obtain ⟨⟨f, hf, hfd⟩, -⟩ := (ih d).mp hd
        exact ⟨f, List.mem_cons_of_mem e hf, hfd⟩
    · rintro ⟨⟨f, hf, hfd⟩, hown, hrest⟩
      refine ⟨?_, fun x hx => hx.elim (hown x) (hbound.mpr hrest x)⟩
      rcases List.mem_cons.mp hf with rfl | hf
      · exact .inl hfd
      · exact .inr ((ih d).mpr ⟨⟨f, hf, hfd⟩, hrest⟩)

theorem any_inDispute (l : List Entry) :
    l.any Entry.inDispute = true ↔ ∃ e ∈ l, e.status = .disputed ∨ e.status = .resolving := by
  simp only [List.any_eq_true, Entry.inDispute, decide_eq_true_eq]

theorem marks_settled (t : Tube) (l : List Entry) :
    (t.primaryMark && t.secondaryMark && !t.truncated && l.all Entry.settled) = true ↔
      t.primaryMark = true ∧ t.secondaryMark = true ∧ t.truncated = false ∧
        ∀ e ∈ l, e.status = .final ∨ e.status = .dismissed := by
  simp only [Bool.and_eq_true, Bool.not_eq_true', List.all_eq_true, Entry.settled, decide_eq_true_eq, and_assoc]

theorem any_callsPlug (limit : Nat) (l : List Entry) : l.any (Entry.callsPlug limit) = true ↔ ∃ e ∈ l, e.status = .final ∧
    (e.outcome = some .nonQuantifiable ∨ ∃ d, e.outcome = some (.depth d) ∧ limit ≤ d) := by
  simp only [List.any_eq_true, Entry.callsPlug_iff]

theorem TubeState.takesCalls_iff (x : TubeState) : x.takesCalls = true ↔ x = .tested ∨ x = .underReview := by
  cases x <;> simp [TubeState.takesCalls]

/-- A tube that an evaluation moves into PLUG_CALLED posts its notice (R176). -/
theorem State.evaluate_told_plugCall {s : State} {i : Nat} {u : Tube} (hu : s.tube i = some u)
    (hs : u.state = .tested ∨ u.state = .underReview)
    (hp : (u.evaluated s.map.params.plugLimit s.store).state = .plugCalled) :
    (s.evaluate i).notices.told .plugCall i := by
  have htakes := (TubeState.takesCalls_iff _).mpr hs
  have hresult : evaluationState u s.map.params.plugLimit ((s.store.listed u.entries).map Prod.snd) = .plugCalled :=
    (if_pos htakes).symm.trans hp
  unfold State.evaluate
  rw [hu]
  dsimp only
  rw [hresult, htakes, if_pos (by decide)]
  exact NoticeUnit.post_told _ _ _

/-- Settles O40, by the three results in order. -/
theorem evaluationRule : Obligations.EvaluationRule := by
  unfold Obligations.EvaluationRule
  intro t limit l open' settled plug hopen hsettled hplug
  rw [← any_inDispute] at hopen
  rw [← marks_settled] at hsettled
  rw [← any_callsPlug] at hplug
  rw [hopen, hsettled, hplug]
  unfold evaluationState
  refine ⟨fun ho => by rw [if_pos ho], fun ho hs hp => by rw [if_neg ho, if_pos hs, if_pos hp],
    fun ho hs hp => by rw [if_neg ho, if_pos hs, if_neg hp], fun ho hs => by rw [if_neg ho, if_neg hs],
    worstFinalDepth_eq_none l, worstFinalDepth_eq_some l, Entry.finalDepth_iff,
    fun s i u hu => ⟨s.evaluate_evaluates i, by rw [State.evaluate_frame], State.evaluate_told_plugCall hu⟩⟩

end Sys2Proof.Machine
end

section
/-! Dual analysis and resolution (O36 to O39). -/

namespace Sys2Proof.Machine

/-! ## Evaluations behind and before other steps -/

theorem State.evaluates_answer {s u : State} {i : Nat} (h : s.evaluates u i) (c : Command) (k : Status) (l : List Byte) :
    s.evaluates (u.answer c k l) i := by
  obtain ⟨hown, hothers, hcompletes, hframe⟩ := h
  exact ⟨hown, hothers, State.completes_of_same hcompletes rfl rfl,
    (congrArg (fun v : State => { v with port := (u.answer c k l).port }) hframe).trans rfl⟩

theorem State.evaluates_post {s u : State} {i : Nat} (h : s.evaluates u i) {c : NoticeClass} (hc : c ≠ .campaignComplete)
    (k : Nat) : s.evaluates (u.post c k) i := by
  obtain ⟨hown, hothers, hcompletes, hframe⟩ := h
  refine ⟨hown, hothers, State.completes_later hcompletes rfl rfl ?_ fun m hm he => ?_,
    (congrArg (fun v : State => { v with notices := u.notices.post c k }) hframe).trans rfl⟩
  · exact fun ht => (NoticeUnit.told_kept _ _ u.notices.levels _ c k ⟨rfl, ht⟩).2
  · exact (NoticeUnit.post_enters hm).resolve_right fun hx => hc (hx.symm.trans he)

theorem State.evaluates_posted {s u : State} {c : NoticeClass} {k i : Nat} (h : (s.post c k).evaluates u i)
    (hc : c ≠ .campaignComplete) : s.evaluates u i := by
  obtain ⟨hown, hothers, hcompletes, hframe⟩ := h
  exact ⟨hown, hothers, State.completes_earlier hcompletes rfl ⟨rfl, rfl⟩ rfl fun m hm he =>
    (NoticeUnit.post_enters hm).resolve_right fun hx => hc (hx.symm.trans he), hframe⟩

/-- An evaluation that changes the tube's state is watched (R40). -/
theorem State.evaluate_watched {s : State} {i : Nat} {t : Tube} (ht : s.tube i = some t)
    (hm : (t.evaluated s.map.params.plugLimit s.store).state ≠ t.state) : s.watched (s.evaluate i) i := by
  unfold State.evaluate
  rw [ht]
  dsimp only
  have hw := State.changeTube_watched s i
    (fun x => { x with
      worstFinal := worstFinalDepth ((s.store.listed t.entries).map Prod.snd)
      state := if x.state.takesCalls then
        evaluationState t s.map.params.plugLimit ((s.store.listed t.entries).map Prod.snd) else x.state })
    t ht hm.symm rfl
  split
  · exact State.watched_later hw fun _ hP hn => hP _ _ _ hn
  · exact hw

/-! ## The roles of the analysts (R182) -/

theorem Requester.analyst {s : State} {c : Command} {rq : Requester} (h : s.takes c rq = true)
    (hc : ∀ r, c.permitsRole r = true → r = .primary ∨ r = .secondary) :
    (rq.role = 3 ∧ rq.roleName = .primary) ∨ (rq.role = 4 ∧ rq.roleName = .secondary) := by
  have hr : ∃ r, roleOf rq.role = some r ∧ c.permitsRole r = true := by
    unfold State.takes Command.permits at h
    split at h
    · simp at h
    · next r hr =>
      simp only [Bool.and_eq_true] at h
      exact ⟨r, hr, h.2.1⟩
  obtain ⟨r, hrole, hperm⟩ := hr
  have hname : rq.roleName = r := by unfold Requester.roleName; rw [hrole]; rfl
  rw [hname]
  rw [roleOf_eq] at hrole
  rcases hc r hperm with rfl | rfl
  · exact .inl ⟨by grind, rfl⟩
  · exact .inr ⟨by grind, rfl⟩

/-! ## SUBMIT_CALL (R163 to R166) -/

theorem exec_submitCall {rq : Requester} {s : State} {ref : EntryRef} {code depth : Nat} {c : Call}
    (h : s.takes .submitCall rq = true) (hn : ref.number < 16384) (hc : callOf code depth = some c) :
    exec (.submitCall rq ref code depth) s = .next (s.submitCall rq.roleName ref c) := by
  refine (exec_accepted (i := .submitCall rq ref code depth)
    (act := fun s => s.submitCall rq.roleName ref ((callOf code depth).getD .noneFound)) h rfl ?_).trans ?_
  · rw [hc]
    exact Bool.and_eq_true_iff.mpr ⟨decide_eq_true hn, rfl⟩
  · rw [hc]
    rfl

@[simp] theorem Entry.compare_tube (e : Entry) (k : Nat) (p q : Call) : (e.compare k p q).tube = e.tube := by
  unfold Entry.compare
  split
  · rfl
  · rfl
  · split <;> rfl
  · rfl
  · rfl

theorem Entry.storeCall_role {rq : Requester} (e : Entry) (c : Call)
    (h : (rq.role = 3 ∧ rq.roleName = .primary) ∨ (rq.role = 4 ∧ rq.roleName = .secondary)) :
    e.storeCall rq.roleName c = if rq.role = 3 then { e with primary := some c } else { e with secondary := some c } := by
  rcases h with ⟨hr, hname⟩ | ⟨hr, hname⟩ <;> rw [hr, hname] <;> rfl

theorem Entry.afterCall_one {e : Entry} {k : Nat} {r : Role} {c : Call}
    (h : (e.storeCall r c).primary = none ∨ (e.storeCall r c).secondary = none) :
    e.afterCall k r c = { e.storeCall r c with status := .oneCall } := by
  unfold Entry.afterCall
  dsimp only
  split
  · next hp hq => rw [hp, hq] at h; exact h.elim nofun nofun
  · rfl

theorem Entry.afterCall_two {e : Entry} {k : Nat} {r : Role} {c p q : Call}
    (hp : (e.storeCall r c).primary = some p) (hq : (e.storeCall r c).secondary = some q) :
    e.afterCall k r c = (e.storeCall r c).compare k p q := by
  unfold Entry.afterCall
  dsimp only
  rw [hp, hq]

theorem Entry.storeCall_tube (e : Entry) (r : Role) (c : Call) : (e.storeCall r c).tube = e.tube := by
  cases r <;> rfl

theorem Entry.afterCall_tube (e : Entry) (k : Nat) (r : Role) (c : Call) : (e.afterCall k r c).tube = e.tube := by
  unfold Entry.afterCall
  dsimp only
  split
  · rw [Entry.compare_tube, Entry.storeCall_tube]
  · exact Entry.storeCall_tube e r c

theorem EntryStatus.takesCall_iff (x : EntryStatus) : x.takesCall = true ↔ x = .new ∨ x = .oneCall ∨ x = .disputed := by
  cases x <;> simp [EntryStatus.takesCall]

theorem State.changeStatus_store (s : State) (n : Nat) (e : Entry) :
    (s.changeStatus n e).store = s.store.setEntry n e ∧ (s.changeStatus n e).seats = s.seats ∧
      (s.changeStatus n e).clock = s.clock ∧ (s.changeStatus n e).port = s.port := by
  rw [State.changeStatus_frame]
  exact ⟨rfl, rfl, rfl, rfl⟩

theorem State.applyCall_kept (s : State) (n : Nat) (e e' : Entry) :
    (s.applyCall n e e').store = s.store.setEntry n e' ∧ (s.applyCall n e e').seats = s.seats ∧
      (s.applyCall n e e').clock = s.clock ∧ (s.applyCall n e e').port = s.port := by
  unfold State.applyCall
  split
  · exact ⟨rfl, rfl, rfl, rfl⟩
  · split
    · exact (s.post .dispute e.tube).changeStatus_store n e'
    · exact s.changeStatus_store n e'

/-- A change of status by a call is evaluated and watched (R166, R40). -/
theorem State.applyCall_changed {s : State} {n : Nat} {e e' : Entry} (hm : e'.status ≠ e.status)
    (ht : e'.tube = e.tube) :
    s.evaluates (s.applyCall n e e') e.tube ∧ s.watched (s.applyCall n e e') e.tube := by
  unfold State.applyCall
  rw [if_neg hm]
  split
  · rw [← ht]
    exact ⟨State.evaluates_posted ((s.post .dispute e'.tube).changeStatus_evaluates n e').1 (by decide),
      State.watched_of_map ((s.post .dispute e'.tube).changeStatus_watched n e') rfl⟩
  · rw [← ht]
    exact ⟨(s.changeStatus_evaluates n e').1, s.changeStatus_watched n e'⟩

theorem State.applyCall_told {s : State} {n : Nat} {e e' : Entry} (h1 : e.status = .oneCall)
    (h2 : e'.status = .disputed) : (s.applyCall n e e').notices.told .dispute e.tube := by
  unfold State.applyCall
  rw [if_neg (by rw [h1, h2]; decide), if_pos ⟨h1, h2⟩]
  exact told_of_kept (fun _ hP => State.changeStatus_notices hP _ _ _) (NoticeUnit.post_told _ _ _)

theorem State.applyCall_tube {s : State} {n : Nat} {e e' : Entry} {t : Tube} (ht : s.tube e.tube = some t)
    (hsame : e'.tube = e.tube) : ∃ v, (s.applyCall n e e').tube e.tube = some v := by
  by_cases hm : e'.status = e.status
  · unfold State.applyCall
    rw [if_pos hm]
    exact ⟨t, ht⟩
  · exact ⟨_, (State.applyCall_changed hm hsame).1.1 t ht⟩

theorem State.tubeStateByte_of {s : State} {i : Nat} {t : Tube} (h : s.tube i = some t) :
    s.tubeStateByte i = byte1 t.state.code := by
  unfold State.tubeStateByte
  rw [h]

theorem State.submitCall_found {s : State} {r : Role} {ref : EntryRef} {c : Call} {e : Entry} {t : Tube}
    (he : s.store.resolve ref = some e) (ht : s.tube e.tube = some t) :
    s.submitCall r ref c =
      if !t.state.takesCalls then s.answer .submitCall .state []
      else if !e.status.takesCall then s.answer .submitCall .state []
      else (s.applyCall ref.number e (e.afterCall s.map.params.tolerance r c)).answer .submitCall .ok
        (byte1 (e.afterCall s.map.params.tolerance r c).status.code ++
          (s.applyCall ref.number e (e.afterCall s.map.params.tolerance r c)).tubeStateByte e.tube) := by
  unfold State.submitCall
  rw [he]
  dsimp only
  rw [ht]

/-- Settles O36, by the checks in order and the call's effect on its entry. -/
theorem submitCallTakes : Obligations.SubmitCallTakes := by
  unfold Obligations.SubmitCallTakes
  intro rq s ref code depth c h hn hc
  have hrole := Requester.analyst h fun r hr => by cases r <;> simp_all [Command.permitsRole]
  rw [exec_submitCall h hn hc]
  refine ⟨fun hr => by unfold State.submitCall; rw [hr], fun e t he ht => ?_⟩
  rw [State.submitCall_found he ht]
  refine ⟨fun h1 h2 => ?_, fun htake hs => ?_, fun htake hs => ?_⟩
  · rw [if_pos]
    rw [Bool.not_eq_true', Bool.eq_false_iff, ne_eq, TubeState.takesCalls_iff]
    exact not_or.mpr ⟨h1, h2⟩
  · have hno : e.status.takesCall = false := by rcases hs with hx | hx | hx <;> rw [hx] <;> rfl
    rw [if_neg (by rw [(TubeState.takesCalls_iff _).mpr htake]; decide), if_pos (by rw [hno]; rfl)]
  · rw [if_neg (by rw [(TubeState.takesCalls_iff _).mpr htake]; decide),
      if_neg (by rw [(EntryStatus.takesCall_iff _).mpr hs]; decide), ← Entry.storeCall_role e c hrole]
    have hsame := e.afterCall_tube s.map.params.tolerance rq.roleName c
    generalize he2 : e.afterCall s.map.params.tolerance rq.roleName c = e2 at hsame ⊢
    obtain ⟨hstore, hseats, hclock, hport⟩ := s.applyCall_kept ref.number e e2
    obtain ⟨v, hv⟩ := State.applyCall_tube (n := ref.number) ht hsame
    refine ⟨_, _, e2, v, rfl, rfl, fun hone => he2.symm.trans (Entry.afterCall_one hone),
      fun p q hp hq => he2.symm.trans (Entry.afterCall_two hp hq), hstore, hseats, hclock, fun hk => ?_, fun hm => ?_,
      fun h1 h2 => State.applyCall_told h1 h2, hv, ?_⟩
    · unfold State.applyCall
      rw [if_pos hk]
      rfl
    · obtain ⟨hev, hw⟩ := State.applyCall_changed (n := ref.number) hm hsame
      exact ⟨State.evaluates_answer hev _ _ _, State.watched_of_notices hw rfl⟩
    · rw [State.tubeStateByte_of hv, State.answer_port, hport]
      rfl

end Sys2Proof.Machine
end

section
/-! Review marks (O37) and the resolver seats (O38, O39). -/

namespace Sys2Proof.Machine

/-! ## REVIEW_DONE (R174) -/

theorem exec_reviewDone {rq : Requester} {s : State} {name : TubeName} {ack : Bool} (h : s.takes .reviewDone rq = true)
    (hn : name.inRange = true) : exec (.reviewDone rq name ack) s = .next (s.reviewDone rq.roleName name ack) :=
  (exec_accepted (i := .reviewDone rq name ack) h rfl hn).trans rfl

theorem State.reviewDone_found {s : State} {r : Role} {name : TubeName} {ack : Bool} {i : Nat} {t : Tube}
    (hf : s.findNamed name = some (i, t)) : s.reviewDone r name ack =
      if !t.state.takesCalls then s.answer .reviewDone .state []
      else if !s.store.callsComplete t.entries r then s.answer .reviewDone .callsMissing []
      else if t.truncated && !ack then s.answer .reviewDone .truncated []
      else ((s.changeTube i (Tube.review r ack)).evaluate i).answer .reviewDone .ok
        (((s.changeTube i (Tube.review r ack)).evaluate i).reviewBody i) := by
  unfold State.reviewDone
  rw [hf]

theorem Store.callsComplete_iff {st : Store} {l : List Nat} {r : Role} :
    ¬ st.callsComplete l r = true ↔ ∃ n ∈ l, ∃ e, st.entry n = some e ∧ e.status ≠ .final ∧ e.status ≠ .dismissed ∧
      e.callOf r = none := by
  unfold Store.callsComplete
  rw [List.all_eq_true]
  push Not
  constructor
  · rintro ⟨⟨n, e⟩, hm, hs⟩
    obtain ⟨hn, he⟩ := (Store.mem_listed st l _).mp hm
    obtain ⟨hsettled, hcall⟩ := Bool.or_eq_false_iff.mp (Bool.eq_false_iff.mpr hs)
    obtain ⟨h1, h2⟩ := not_or.mp (of_decide_eq_false hsettled)
    exact ⟨n, hn, e, he, h1, h2, Option.isSome_eq_false_iff.mp hcall |> Option.isNone_iff_eq_none.mp⟩
  · rintro ⟨n, hn, e, he, h1, h2, h3⟩
    refine ⟨(n, e), (Store.mem_listed st l _).mpr ⟨hn, he⟩, ?_⟩
    simp only [Entry.settled, h1, h2, h3]
    decide

theorem Entry.callOf_role {rq : Requester} (e : Entry)
    (h : (rq.role = 3 ∧ rq.roleName = .primary) ∨ (rq.role = 4 ∧ rq.roleName = .secondary)) :
    e.callOf rq.roleName = none ↔ (rq.role = 3 → e.primary = none) ∧ (rq.role = 4 → e.secondary = none) := by
  rcases h with ⟨hr, hname⟩ | ⟨hr, hname⟩ <;> rw [hr, hname] <;> simp [Entry.callOf]

theorem Tube.review_role {rq : Requester} {t : Tube} {ack : Bool}
    (h : (rq.role = 3 ∧ rq.roleName = .primary) ∨ (rq.role = 4 ∧ rq.roleName = .secondary))
    (ha : t.truncated = false ∨ ack = true) : t.review rq.roleName ack =
      { t with
        primaryMark := t.primaryMark || decide (rq.role = 3)
        secondaryMark := t.secondaryMark || decide (rq.role = 4)
        truncated := t.truncated && decide (rq.role = 4) } := by
  rcases h with ⟨hr, hname⟩ | ⟨hr, hname⟩ <;> rw [hr, hname]
  · rcases ha with ha | ha <;> simp [Tube.review, ha]
  · simp [Tube.review]

theorem Tube.review_kept (r : Role) (ack : Bool) (t : Tube) :
    (t.review r ack).state = t.state ∧ (t.review r ack).planned = t.planned ∧ (t.review r ack).pos = t.pos ∧
      (t.review r ack).entries = t.entries := by
  cases r <;> exact ⟨rfl, rfl, rfl, rfl⟩

/-- An evaluation leaves all but the tubes, their counts and the notices as it was (R175). -/
theorem State.evaluate_only (s : State) (i : Nat) : s.evaluate i = { s with
    map := { s.map with
      tubes := (s.evaluate i).map.tubes, census := (s.evaluate i).map.census, armed := (s.evaluate i).map.armed }
    notices := (s.evaluate i).notices } := by
  conv_lhs => rw [State.evaluate_frame, (s.evaluate_quiet i).1, (s.evaluate_quiet i).2]

/-- An accepted REVIEW_DONE leaves the marked tube evaluated, and the rest as it was (R174, R175). -/
theorem State.review_evaluate {s : State} {r : Role} {ack : Bool} {i : Nat} {t : Tube} (ht : s.tube i = some t) :
    ((s.changeTube i (Tube.review r ack)).evaluate i).tube i =
      some ((t.review r ack).evaluated s.map.params.plugLimit s.store) ∧
    (∀ j, j ≠ i → ((s.changeTube i (Tube.review r ack)).evaluate i).tube j = s.tube j) ∧
    (s.changeTube i (Tube.review r ack)).evaluate i = { s with
      map := { s.map with
        tubes := ((s.changeTube i (Tube.review r ack)).evaluate i).map.tubes
        census := ((s.changeTube i (Tube.review r ack)).evaluate i).map.census
        armed := ((s.changeTube i (Tube.review r ack)).evaluate i).map.armed }
      notices := ((s.changeTube i (Tube.review r ack)).evaluate i).notices } := by
  have hf := State.changeTube_frame s i (Tube.review r ack)
  have hquiet := State.changeTube_quiet s i (Tube.review r ack) fun t _ => .inl (t.review_kept r ack).1.symm
  have hv : (s.changeTube i (Tube.review r ack)).tube i = some (t.review r ack) := by
    rw [State.changeTube_tube, if_pos rfl, ht]
    rfl
  have honly : s.changeTube i (Tube.review r ack) = { s with
      map := (s.changeTube i (Tube.review r ack)).map
      notices := (s.changeTube i (Tube.review r ack)).notices } := by
    conv_lhs => rw [hf, hquiet.1, hquiet.2]
    rw [hf]
  refine ⟨?_, fun j hj => ?_, ?_⟩
  · rw [State.evaluate_tube _ i _ hv, if_pos rfl, hf]
    rfl
  · rw [State.evaluate_tube _ i _ hv, if_neg hj.symm, State.changeTube_tube, if_neg hj.symm]
  · refine (State.evaluate_only _ i).trans ?_
    generalize (s.changeTube i (Tube.review r ack)).evaluate i = v
    refine (congrArg (fun u : State => { u with
      map := { u.map with tubes := v.map.tubes, census := v.map.census, armed := v.map.armed }
      notices := v.notices }) honly).trans ?_
    rw [hf]

theorem State.reviewBody_of {s : State} {i : Nat} {t : Tube} (h : s.tube i = some t) : s.reviewBody i =
    flag1 t.primaryMark ++ flag1 t.secondaryMark ++ flag1 t.truncated ++ byte1 t.state.code := by
  unfold State.reviewBody
  rw [h]

/-- Settles O37, by the checks in order, the mark and the evaluation. -/
theorem reviewDoneMarks : Obligations.ReviewDoneMarks := by
  unfold Obligations.ReviewDoneMarks
  intro rq s name ack h hn
  have hrole := Requester.analyst h fun r hr => by cases r <;> simp_all [Command.permitsRole]
  rw [exec_reviewDone h hn]
  refine ⟨fun hf => by unfold State.reviewDone; rw [hf], fun i t missing hf hmissing => ?_⟩
  have ht : s.tube i = some t := State.findNamed_tube hf
  have hcomplete : ¬ s.store.callsComplete t.entries rq.roleName = true ↔ missing := by
    rw [Store.callsComplete_iff, hmissing]
    simp only [Entry.callOf_role _ hrole]
  rw [State.reviewDone_found hf]
  refine ⟨fun h1 h2 => ?_, fun htake => ?_⟩
  · rw [if_pos]
    rw [Bool.not_eq_true', Bool.eq_false_iff, ne_eq, TubeState.takesCalls_iff]
    exact not_or.mpr ⟨h1, h2⟩
  · rw [if_neg (by rw [(TubeState.takesCalls_iff _).mpr htake]; decide)]
    refine ⟨fun hm => ?_, fun hm htr ha => ?_, fun hm hacc => ?_⟩
    · rw [if_pos (by rw [Bool.eq_false_iff.mpr (hcomplete.mpr hm)]; rfl)]
    · rw [if_neg (by rw [not_not.mp (mt hcomplete.mp hm)]; decide), if_pos (by rw [htr, ha]; rfl)]
    · rw [if_neg (by rw [not_not.mp (mt hcomplete.mp hm)]; decide),
        if_neg (by rcases hacc with hx | hx <;> rw [hx] <;> simp), ← Tube.review_role hrole hacc]
      obtain ⟨hown, hothers, hframe⟩ := State.review_evaluate (r := rq.roleName) (ack := ack) ht
      obtain ⟨hstate, hplanned, hpos, hentries⟩ := t.review_kept rq.roleName ack
      have hv : (s.changeTube i (Tube.review rq.roleName ack)).tube i = some (t.review rq.roleName ack) := by
        rw [State.changeTube_tube, if_pos rfl, ht]
        rfl
      have hf := State.changeTube_frame s i (Tube.review rq.roleName ack)
      have hresult : (t.review rq.roleName ack).evaluated
          (s.changeTube i (Tube.review rq.roleName ack)).map.params.plugLimit
          (s.changeTube i (Tube.review rq.roleName ack)).store =
          (t.review rq.roleName ack).evaluated s.map.params.plugLimit s.store := by rw [hf]
      refine ⟨_, _, rfl, hown, rfl, hothers, fun hm => ?_, fun hcensus => ?_, fun hp => ?_, ?_, ?_⟩
      · refine State.watched_of_notices (State.watched_of_record (State.evaluate_watched hv ?_) (by rw [hf]) ?_) rfl
        · rw [hresult, hstate]
          exact hm
        · rw [hv, ht]
          simp only [Option.map_some, Tube.listAndPlace, hpos, hentries]
      · refine State.completes_of_same
          (s.changeTube_evaluate_completes i (Tube.review rq.roleName ack) t ht hcensus hplanned ?_) rfl rfl
        simp only [Tube.isOpen, hstate, hplanned]
      · exact State.evaluate_told_plugCall hv (by rw [hstate]; exact htake) (by rw [hresult]; exact hp)
      · rw [State.reviewBody_of hown, State.answer_port, hframe]
        rfl
      · generalize (s.changeTube i (Tube.review rq.roleName ack)).evaluate i = w at hframe ⊢
        exact (congrArg (fun u : State => { u with port := (w.answer .reviewDone .ok (w.reviewBody i)).port }) hframe).trans
          rfl

/-! ## TAKE_ENTRY (R167, R168) -/

theorem exec_takeEntry {rq : Requester} {s : State} {ref : EntryRef} (h : s.takes .takeEntry rq = true)
    (hn : ref.number < 16384) : exec (.takeEntry rq ref) s = .next (s.takeEntry rq.seat ref) :=
  (exec_accepted (i := .takeEntry rq ref) h rfl (decide_eq_true hn)).trans rfl

theorem State.takeEntry_found {s : State} {k : Fin 4} {ref : EntryRef} {e : Entry}
    (he : s.store.resolve ref = some e) : s.takeEntry k ref =
      if e.status = .resolving ∧ e.holder ≠ some k then s.answer .takeEntry .held []
      else if (s.seats.get k).held.isSome then s.answer .takeEntry .seatBusy []
      else if e.status ≠ .disputed then s.answer .takeEntry .state []
      else if !s.tubeUnderReview e.tube then s.answer .takeEntry .state []
      else (s.hold k ref e).answer .takeEntry .ok (ref.bytes ++ byte2 (s.map.params.holdLimit * 60)) := by
  unfold State.takeEntry
  rw [he]

theorem State.tubeUnderReview_of {s : State} {i : Nat} {t : Tube} (h : s.tube i = some t) :
    s.tubeUnderReview i = decide (t.state = .underReview) := by
  unfold State.tubeUnderReview
  rw [h]

/-- A change of an entry's status behind a change of the seats and the clock (R40, R175). -/
theorem State.changeStatus_reseated (s : State) (seats : Four Seat) (clock n : Nat) (e : Entry) :
    s.evaluates (({ s with seats := seats, clock := clock } : State).changeStatus n e) e.tube ∧
    s.watched (({ s with seats := seats, clock := clock } : State).changeStatus n e) e.tube := by
  obtain ⟨⟨hown, hothers, hcompletes, hframe⟩, -⟩ :=
    State.changeStatus_evaluates { s with seats := seats, clock := clock } n e
  exact ⟨⟨hown, hothers, State.completes_earlier hcompletes rfl ⟨rfl, rfl⟩ rfl fun _ hm _ => hm, hframe⟩,
    State.watched_of_map (State.changeStatus_watched { s with seats := seats, clock := clock } n e) rfl⟩

/-- A tube UNDER_REVIEW stays so while one of its entries is in dispute (R175). -/
theorem Tube.evaluated_underReview {t : Tube} {limit : Nat} {st : Store} {n : Nat} {e : Entry} (hn : n ∈ t.entries)
    (he : st.entry n = some e) (hd : e.status = .disputed ∨ e.status = .resolving) (ht : t.state = .underReview) :
    (t.evaluated limit st).state = .underReview := by
  unfold Tube.evaluated
  dsimp only
  rw [ht, evaluationState_disputed (Store.mem_listedEntries hn he) hd]
  rfl

/-- Settles O38, by the checks in order and the hold. -/
theorem takeEntryHolds : Obligations.TakeEntryHolds := by
  unfold Obligations.TakeEntryHolds
  intro rq s ref h hn
  rw [exec_takeEntry h hn]
  refine ⟨fun hr => by unfold State.takeEntry; rw [hr], fun e t he ht => ?_⟩
  rw [State.takeEntry_found he, State.tubeUnderReview_of ht]
  refine ⟨fun hs hh => by rw [if_pos ⟨hs, hh⟩], fun hs hh => ?_, fun hs hh hbad => ?_, fun hh hs hu => ?_⟩
  · rw [if_neg fun hx => hs.elim (absurd hx.1) (fun hy => hx.2 hy), if_pos (Option.isSome_iff_ne_none.mpr hh)]
  · rw [if_neg fun hx => hs.elim (absurd hx.1) (fun hy => hx.2 hy), if_neg (by rw [hh]; decide)]
    by_cases hd : e.status = .disputed
    · rw [if_neg (not_not.mpr hd), if_pos]
      rw [decide_eq_false (hbad.resolve_left (not_not.mpr hd))]
      rfl
    · rw [if_pos hd]
  · rw [if_neg (by rw [hs]; exact fun hx => nomatch hx.1), if_neg (by rw [hh]; decide), if_neg (not_not.mpr hs),
      if_neg (by rw [hu]; decide)]
    have hstore := State.changeStatus_store { s with
      seats := s.seats.set rq.seat { held := some ref, expiry := some (s.clock + holdMillis s.map.params.holdLimit) } }
      ref.number { e with status := .resolving, holder := some rq.seat }
    obtain ⟨hev, hw⟩ := s.changeStatus_reseated
      (s.seats.set rq.seat { held := some ref, expiry := some (s.clock + holdMillis s.map.params.holdLimit) }) s.clock
      ref.number { e with status := .resolving, holder := some rq.seat }
    refine ⟨_, rfl, hstore.1, hstore.2.1, hstore.2.2.1, State.evaluates_answer hev _ _ _,
      State.watched_of_notices hw rfl, fun hmem => ⟨_, hev.1 t ht, ?_⟩, ?_⟩
    · refine Tube.evaluated_underReview (e := { e with status := .resolving, holder := some rq.seat }) hmem ?_ (.inr rfl) hu
      rw [hstore.1, Store.entry_setEntry, if_pos rfl]
    · rw [State.answer_port, State.hold, hstore.2.2.2]
      rfl

/-! ## The ends of a hold (R169 to R171) -/

theorem exec_resolveEntry {rq : Requester} {s : State} {code depth : Nat} {c : Call}
    (h : s.takes .resolveEntry rq = true) (hc : callOf code depth = some c) :
    exec (.resolveEntry rq code depth) s = .next (s.resolveEntry rq.seat c) := by
  refine (exec_accepted (i := .resolveEntry rq code depth)
    (act := fun s => s.resolveEntry rq.seat ((callOf code depth).getD .noneFound)) h rfl ?_).trans ?_
  · rw [hc]
    rfl
  · rw [hc]
    rfl

theorem exec_releaseEntry {rq : Requester} {s : State} (h : s.takes .releaseEntry rq = true) :
    exec (.releaseEntry rq) s = .next (s.releaseEntry rq.seat) :=
  (exec_accepted (i := .releaseEntry rq) h rfl rfl).trans rfl

theorem State.heldEntry_free {s : State} {k : Fin 4} (h : (s.seats.get k).held = none) : s.heldEntry k = none := by
  unfold State.heldEntry
  rw [h]

theorem State.heldEntry_of {s : State} {k : Fin 4} {ref : EntryRef} {e : Entry}
    (h : (s.seats.get k).held = some ref) (he : s.store.entry ref.number = some e) :
    s.heldEntry k = some (ref, e) := by
  unfold State.heldEntry
  rw [h]
  dsimp only
  rw [he]
  rfl

theorem Entry.resolved_tube (e : Entry) (c : Call) : (e.resolved c).tube = e.tube := by
  cases c <;> rfl

/-- A hold that ends, at the time `clock`, with its entry `e` (R169, R170, R171). -/
def State.endHold (s : State) (k : Fin 4) (clock n : Nat) (e : Entry) : State :=
  (({ s with clock } : State).freeSeat k).changeStatus n e

theorem State.endHold_spec (s : State) (k : Fin 4) (clock n : Nat) (e : Entry) :
    (s.endHold k clock n e).store = s.store.setEntry n e ∧
    (s.endHold k clock n e).seats = s.seats.set k { held := none, expiry := none } ∧
    (s.endHold k clock n e).clock = clock ∧ (s.endHold k clock n e).port = s.port ∧
    s.evaluates (s.endHold k clock n e) e.tube ∧ s.watched (s.endHold k clock n e) e.tube := by
  have h := State.changeStatus_store (({ s with clock } : State).freeSeat k) n e
  exact ⟨h.1, h.2.1, h.2.2.1, h.2.2.2, s.changeStatus_reseated (s.seats.set k { held := none, expiry := none }) clock n e⟩

/-- Only an expiry posts HOLD_EXPIRED (R171). -/
theorem State.endHold_silent {s : State} {k : Fin 4} {clock n : Nat} {e : Entry} {m : Notice}
    (hm : m ∈ (s.endHold k clock n e).notices.pending) (hc : m.cls = .holdExpired) : m ∈ s.notices.pending := by
  rcases State.changeStatus_enters hm with h | h | h | h | h
  · exact h
  all_goals exact absurd (hc.symm.trans h) (by decide)

theorem State.resolveEntry_held {s : State} {k : Fin 4} {ref : EntryRef} {e : Entry} {c : Call}
    (h : s.heldEntry k = some (ref, e)) : s.resolveEntry k c =
      (s.endHold k s.clock ref.number (e.resolved c)).answer .resolveEntry .ok
        (ref.bytes ++ byte1 (e.resolved c).status.code ++
          (s.endHold k s.clock ref.number (e.resolved c)).tubeStateByte e.tube) := by
  unfold State.resolveEntry
  rw [h]
  rfl

theorem State.releaseEntry_held {s : State} {k : Fin 4} {ref : EntryRef} {e : Entry}
    (h : s.heldEntry k = some (ref, e)) : s.releaseEntry k =
      (s.endHold k s.clock ref.number e.returned).answer .releaseEntry .ok ref.bytes := by
  unfold State.releaseEntry
  rw [h]
  rfl

theorem State.holdExpiry_held {s : State} {k : Fin 4} {ref : EntryRef} {e : Entry} {due : Nat}
    (hd : (s.seats.get k).expiry = some due) (h : s.heldEntry k = some (ref, e)) : s.holdExpiry k =
      (s.endHold k (max s.clock due) ref.number e.returned).post .holdExpired k.val := by
  unfold State.holdExpiry State.returnHeld
  rw [hd]
  dsimp only
  rw [show ({ s with clock := max s.clock due } : State).heldEntry k = some (ref, e) from h]
  rfl

/-- Settles O39: the three ends free the seat and change the entry's status; the expiry posts its notice. -/
theorem holdsEnd : Obligations.HoldsEnd := by
  unfold Obligations.HoldsEnd
  refine fun rq s k => ⟨fun code depth c h hk hc => ?resolve, fun h hk => ?release, fun hheld => ?expiry⟩
  case resolve =>
    rw [exec_resolveEntry h hc, hk]
    refine ⟨fun hfree => by unfold State.resolveEntry; rw [State.heldEntry_free hfree], fun ref e t hh he ht => ?_⟩
    obtain ⟨hstore, hseats, hclock, hport, hev, hw⟩ := s.endHold_spec k s.clock ref.number (e.resolved c)
    rw [Entry.resolved_tube] at hev hw
    have hown := hev.1 t ht
    rw [State.resolveEntry_held (State.heldEntry_of hh he), State.tubeStateByte_of hown]
    refine ⟨_, _, _, rfl, ?_, ?_, ?_, hstore, hclock, hseats, State.evaluates_answer hev _ _ _,
      State.watched_of_notices hw rfl, fun m hm hx => State.endHold_silent hm hx, hown, ?_⟩
    · rintro (rfl | rfl) <;> rfl
    · rintro d rfl
      rfl
    · rintro rfl
      rfl
    · rw [State.answer_port, hport]
      rfl
  case release =>
    rw [exec_releaseEntry h, hk]
    refine ⟨fun hfree => by unfold State.releaseEntry; rw [State.heldEntry_free hfree], fun ref e hh he => ?_⟩
    obtain ⟨hstore, hseats, hclock, hport, hev, hw⟩ := s.endHold_spec k s.clock ref.number e.returned
    rw [State.releaseEntry_held (State.heldEntry_of hh he)]
    refine ⟨_, rfl, hstore, hseats, hclock, State.evaluates_answer hev _ _ _, State.watched_of_notices hw rfl,
      fun m hm hx => State.endHold_silent hm hx, ?_⟩
    rw [State.answer_port, hport]
    rfl
  case expiry =>
    rw [show exec (.holdTimerExpiry k) s = .next (s.holdExpiry k) from
      congrArg Host.Outcome.next (State.whenRunning_running hheld _)]
    refine ⟨fun hnone => by unfold State.holdExpiry; rw [hnone], fun due ref e hd hh he => ?_⟩
    obtain ⟨hstore, hseats, hclock, hport, hev, hw⟩ := s.endHold_spec k (max s.clock due) ref.number e.returned
    rw [State.holdExpiry_held hd (State.heldEntry_of hh he)]
    exact ⟨_, rfl, hstore, hseats, hclock, hport, State.evaluates_post hev (by decide) k.val,
      State.watched_later hw fun _ hP hn => hP _ _ _ hn, NoticeUnit.post_told _ _ _⟩

end Sys2Proof.Machine
end

section
/-! The pending set: the order of its notices (O42) and the notice commands (O43). -/

namespace Sys2Proof.Machine

/-! ## The order of the notices (R189, R192) -/

theorem Notice.before_iff (a b : Notice) :
    a.before b = true ↔ a.cls.number < b.cls.number ∨ (a.cls.number = b.cls.number ∧ a.subject < b.subject) := by
  simp only [Notice.before, Bool.or_eq_true, Bool.and_eq_true, decide_eq_true_eq, beq_iff_eq]

theorem Notice.lower_iff (l : Levels) (a b : Notice) : a.lower l b = true ↔ l.get a.cls < l.get b.cls ∨
    (l.get a.cls = l.get b.cls ∧ (b.cls.number < a.cls.number ∨
      (b.cls.number = a.cls.number ∧ b.subject < a.subject))) := by
  simp only [Notice.lower, Bool.or_eq_true, Bool.and_eq_true, decide_eq_true_eq, beq_iff_eq, Notice.before_iff]

theorem noticeClassOf_number (c : NoticeClass) : noticeClassOf c.number = some c := by
  cases c <;> rfl

theorem NoticeClass.number_inj {c d : NoticeClass} (h : c.number = d.number) : c = d := by
  have := noticeClassOf_number c
  rw [h, noticeClassOf_number d] at this
  exact (Option.some.inj this).symm

theorem Notice.lower_total {l : Levels} {a b : Notice} (h : a ≠ b) : a.lower l b = true ∨ b.lower l a = true := by
  have hne : a.cls.number ≠ b.cls.number ∨ a.subject ≠ b.subject := by
    by_contra hx
    obtain ⟨h1, h2⟩ := not_or.mp hx
    obtain ⟨ca, na⟩ := a
    obtain ⟨cb, nb⟩ := b
    exact h (by rw [Notice.mk.injEq]; exact ⟨NoticeClass.number_inj (not_not.mp h1), not_not.mp h2⟩)
  rw [Notice.lower_iff, Notice.lower_iff]
  omega

theorem Notice.lower_trans {l : Levels} {a b c : Notice} (h : a.lower l b = true) (h' : b.lower l c = true) :
    a.lower l c = true := by
  rw [Notice.lower_iff] at *
  omega

theorem lowestNotice_lower {l : Levels} {p : List Notice} {low : Notice} (h : lowestNotice l p = some low) :
    ∀ m ∈ p, m ≠ low → low.lower l m = true := by
  induction p generalizing low with
  | nil => exact nomatch h
  | cons n t ih =>
    rw [lowestNotice] at h
    split at h
    · next hlow =>
      obtain rfl := Option.some.inj h
      rw [lowestNotice_none hlow]
      exact fun m hm hne => absurd (List.mem_singleton.mp hm) hne
    · next k hk =>
      obtain rfl := Option.some.inj h
      intro m hm hne
      split
      · next hnk =>
        rw [if_pos hnk] at hne
        rcases List.mem_cons.mp hm with rfl | hm
        · exact absurd rfl hne
        · by_cases hmk : m = k
          · rw [hmk]; exact hnk
          · exact Notice.lower_trans hnk (ih hk m hm hmk)
      · next hnk =>
        rw [if_neg hnk] at hne
        rcases List.mem_cons.mp hm with rfl | hm
        · exact (Notice.lower_total hne).resolve_left hnk
        · exact ih hk m hm hne

theorem highestNotice_none {l : Levels} {p : List Notice} (h : highestNotice l p = none) : p = [] := by
  cases p with
  | nil => rfl
  | cons n t =>
    rw [highestNotice] at h
    split at h
    · exact nomatch h
    · exact nomatch h

theorem highestNotice_spec {l : Levels} {p : List Notice} {high : Notice} (h : highestNotice l p = some high) :
    high ∈ p ∧ ∀ m ∈ p, m = high ∨ m.lower l high = true := by
  induction p generalizing high with
  | nil => exact nomatch h
  | cons n t ih =>
    rw [highestNotice] at h
    split at h
    · next hhigh =>
      obtain rfl := Option.some.inj h
      rw [highestNotice_none hhigh]
      exact ⟨List.mem_singleton.mpr rfl, fun m hm => .inl (List.mem_singleton.mp hm)⟩
    · next k hk =>
      obtain rfl := Option.some.inj h
      obtain ⟨hmem, hall⟩ := ih hk
      split
      · next hkn =>
        refine ⟨List.mem_cons_self, fun m hm => ?_⟩
        rcases List.mem_cons.mp hm with rfl | hm
        · exact .inl rfl
        · rcases hall m hm with rfl | hlow
          · exact .inr hkn
          · exact .inr (Notice.lower_trans hlow hkn)
      · next hkn =>
        refine ⟨List.mem_cons_of_mem _ hmem, fun m hm => ?_⟩
        rcases List.mem_cons.mp hm with rfl | hm
        · by_cases hmk : m = k
          · exact .inl hmk
          · exact .inr ((Notice.lower_total hmk).resolve_right hkn)
        · exact hall m hm

/-! ## A post (R188, R189) -/

theorem mem_insertNotice {m n : Notice} {p : List Notice} : m ∈ insertNotice n p ↔ m = n ∨ m ∈ p :=
  (insertNotice_perm n p).mem_iff.trans List.mem_cons

/-- A post to a set with room (R188). -/
theorem NoticeUnit.post_room {u : NoticeUnit} {c : NoticeClass} {n : Nat} (hl : u.levels.get c ≠ 0)
    (hn : { cls := c, subject := n } ∉ u.pending) (hroom : u.pending.length < 32) :
    u.post c n = { u with pending := insertNotice { cls := c, subject := n } u.pending } := by
  unfold NoticeUnit.post
  dsimp only
  rw [if_neg hl, if_neg hn, if_pos (show _ < Config.noticeLimit from hroom)]

/-- A post to a full set (R189). -/
theorem NoticeUnit.post_full {u : NoticeUnit} {c : NoticeClass} {n : Nat} {low : Notice} (hl : u.levels.get c ≠ 0)
    (hn : { cls := c, subject := n } ∉ u.pending) (hfull : 32 ≤ u.pending.length)
    (hlow : lowestNotice u.levels u.pending = some low) :
    u.post c n = if u.levels.get low.cls < u.levels.get c then
      { u with pending := insertNotice { cls := c, subject := n } (u.pending.erase low), overflow := true }
      else { u with overflow := true } := by
  unfold NoticeUnit.post
  dsimp only
  rw [if_neg hl, if_neg hn, if_neg (show ¬ _ < Config.noticeLimit from Nat.not_lt.mpr hfull), hlow]

/-- Settles O42, by the rules in order and the lowest notice of a full set. -/
theorem postRules : Obligations.PostRules := by
  unfold Obligations.PostRules
  refine fun u c n => ⟨fun hl => ?_, fun hn => ?_, fun hl hn => ⟨fun hroom => ?_, fun hfull hnd => ?_⟩⟩
  · unfold NoticeUnit.post
    rw [if_pos hl]
  · unfold NoticeUnit.post
    by_cases hl : u.levels.get c = 0
    · rw [if_pos hl]
    · rw [if_neg hl, if_pos hn]
  · rw [NoticeUnit.post_room hl hn hroom]
    exact ⟨rfl, fun m => mem_insertNotice⟩
  · cases hlow : lowestNotice u.levels u.pending with
    | none => rw [lowestNotice_none hlow] at hfull; exact absurd hfull (by decide)
    | some low =>
      have hmem := lowestNotice_mem hlow
      have hall := lowestNotice_lower hlow
      rw [NoticeUnit.post_full hl hn hfull hlow]
      by_cases hlev : u.levels.get low.cls < u.levels.get c
      · rw [if_pos hlev]
        refine .inr ⟨low, hmem, hlev, fun m hm hne => (Notice.lower_iff _ _ _).mp (hall m hm hne), rfl, ?_, fun m => ?_⟩
        · rw [(insertNotice_perm _ _).length_eq, List.length_cons, List.length_erase_of_mem hmem]
          omega
        · rw [mem_insertNotice, hnd.mem_erase_iff, and_comm (a := m ≠ low)]
      · rw [if_neg hlev]
        refine .inl ⟨fun m hm => ?_, rfl⟩
        by_cases hne : m = low
        · rw [hne]; exact Nat.not_lt.mp hlev
        · have := (Notice.lower_iff _ _ _).mp (hall m hm hne)
          omega

/-! ## The items of the classes (R192) -/

theorem noticeItem_tube {s : State} {n : Notice} (h : n.cls = .blocked ∨ n.cls = .plugCall ∨ n.cls = .dispute) :
    noticeItem s n = tubeItem (s.tube n.subject) := by
  unfold noticeItem
  rcases h with h | h | h <;> rw [h]

theorem noticeItem_channel {s : State} {n : Notice} {k : Fin 8} (h : n.cls = .stall ∨ n.cls = .exhausted)
    (hk : n.subject = k.val) : noticeItem s n =
      byte1 (s.chan k).state.code ++ flag1 (s.chan k).claim.isSome ++ posOrZero ((s.chan k).claim.map Claim.pos) := by
  unfold noticeItem
  rcases h with h | h <;> rw [h, hk, eightOf_val]

theorem noticeItem_watch {s : State} {n : Notice} {k : Fin 4} (h : n.cls = .watch) (hk : n.subject = k.val) :
    (s.map.watches.get k = none → noticeItem s n = List.replicate 4 0#8) ∧
    ∀ p, s.map.watches.get k = some p → noticeItem s n = watchItem s p := by
  unfold noticeItem
  rw [h, hk]
  dsimp only
  rw [fourOf_val]
  exact ⟨fun hw => by rw [hw], fun p hw => by rw [hw]⟩

theorem watchItem_of {s : State} {p : Pos} {i : Nat} {t : Tube} (hi : s.map.at p = some i) (ht : s.tube i = some t) :
    watchItem s p = byte1 1 ++ p.bytes ++ byte1 t.state.code := by
  unfold watchItem
  rw [hi, Option.bind_some, ht]

theorem noticeItem_link {s : State} {n : Notice} {k : Fin 8} (h : n.cls = .link) (hk : n.subject = k.val) :
    noticeItem s n = byte1 (s.link k).rx.code ++ byte1 (s.link k).errors ++ List.replicate 2 0#8 := by
  unfold noticeItem
  rw [h, hk, eightOf_val]

theorem noticeItem_holdExpired {s : State} {n : Notice} {k : Fin 4} (h : n.cls = .holdExpired) (hk : n.subject = k.val) :
    noticeItem s n = presence 3 EntryRef.bytes (s.seats.get k).held := by
  unfold noticeItem
  rw [h, hk, fourOf_val]

theorem noticeItem_interlock {s : State} {n : Notice} (h : n.cls = .interlock) :
    noticeItem s n = flag1 s.interlock.low ++ flag1 s.interlock.latch ++ List.replicate 2 0#8 := by
  unfold noticeItem
  rw [h]

theorem noticeItem_pool {s : State} {n : Notice} (h : n.cls = .pool) :
    noticeItem s n = byte2 s.store.free.count ++ List.replicate 2 0#8 := by
  unfold noticeItem
  rw [h]

theorem noticeItem_campaignComplete {s : State} {n : Notice} (h : n.cls = .campaignComplete) :
    noticeItem s n = byte2 s.map.census.plannedOpen ++ List.replicate 2 0#8 := by
  unfold noticeItem
  rw [h]

theorem flag1_eq (b : Bool) : flag1 b = [if b then 1#8 else 0#8] := by
  cases b <;> rfl

/-! ## The settings of the notice unit (R187, R191, R39) -/

theorem noticeClassOf_above {n : Nat} (h : 10 < n) : noticeClassOf n = none := by
  match n with
  | n + 11 => rfl

theorem exec_setNoticeLevel {rq : Requester} {s : State} {cls level : Nat} {c : NoticeClass}
    (h : s.takes .setNoticeLevel rq = true) (hc : c.number = cls) (hl : level ≤ 7) :
    exec (.setNoticeLevel rq cls level) s = .next (s.setNoticeLevel c level) := by
  have hof : noticeClassOf cls = some c := by rw [← hc]; exact noticeClassOf_number c
  refine (exec_accepted (i := .setNoticeLevel rq cls level)
    (act := fun s => s.setNoticeLevel ((noticeClassOf cls).getD .interlock) level) h rfl ?_).trans ?_
  · rw [hof]
    exact Bool.and_eq_true_iff.mpr ⟨rfl, decide_eq_true hl⟩
  · rw [hof]
    rfl

theorem exec_setNoticeLevel_range {rq : Requester} {s : State} {cls level : Nat}
    (h : s.takes .setNoticeLevel rq = true) (hbad : 10 < cls ∨ 7 < level) :
    exec (.setNoticeLevel rq cls level) s = .next (s.answer .setNoticeLevel .range []) := by
  refine exec_out_of_range (i := .setNoticeLevel rq cls level) h rfl ?_
  rcases hbad with hbad | hbad
  · rw [noticeClassOf_above hbad]
    rfl
  · rw [decide_eq_false (Nat.not_le.mpr hbad), Bool.and_false]

theorem exec_setFloor {rq : Requester} {s : State} {floor : Nat} (h : s.takes .setFloor rq = true) (hf : floor ≤ 7) :
    exec (.setFloor rq floor) s = .next (s.setFloor floor) :=
  (exec_accepted (i := .setFloor rq floor) h rfl (decide_eq_true hf)).trans rfl

theorem exec_setWatch {rq : Requester} {s : State} {k : Fin 4} {p : Option Pos} (h : s.takes .setWatch rq = true)
    (hp : ∀ x, p = some x → x.inGrid = true) :
    exec (.setWatch rq k.val p) s = .next (s.setWatch k p) := by
  refine (exec_accepted (i := .setWatch rq k.val p) (act := fun s => s.setWatch (fourOf k.val) p) h rfl ?_).trans ?_
  · refine Bool.and_eq_true_iff.mpr ⟨decide_eq_true (by omega), ?_⟩
    cases p with
    | none => rfl
    | some x => exact hp x rfl
  · rw [fourOf_val]

theorem exec_takeNotice {rq : Requester} {s : State} (h : s.takes .takeNotice rq = true) :
    exec (.takeNotice rq) s = .next s.takeNotice :=
  (exec_accepted (i := .takeNotice rq) h rfl rfl).trans rfl

theorem NoticeUnit.setLevel_levels (u : NoticeUnit) (c : NoticeClass) (v : Nat) :
    (u.setLevel c v).levels = u.levels.set c v ∧ (u.setLevel c v).floor = u.floor := by
  unfold NoticeUnit.setLevel
  dsimp only
  split <;> exact ⟨rfl, rfl⟩

theorem NoticeUnit.setLevel_above {u : NoticeUnit} {c : NoticeClass} {v : Nat} (h : v ≠ 0) :
    (u.setLevel c v).pending = u.pending ∧ (u.setLevel c v).overflow = u.overflow := by
  unfold NoticeUnit.setLevel
  dsimp only
  rw [if_neg h]
  exact ⟨rfl, rfl⟩

theorem NoticeUnit.setLevel_zero (u : NoticeUnit) (c : NoticeClass) :
    u.setLevel c 0 = NoticeUnit.keep { u with levels := u.levels.set c 0 } (u.pending.filter fun n => decide (n.cls ≠ c)) := by
  unfold NoticeUnit.setLevel
  dsimp only
  rw [if_pos rfl]

theorem NoticeUnit.keep_overflow (u : NoticeUnit) (rest : List Notice) :
    (rest = [] → u.pending ≠ [] → (u.keep rest).overflow = false) ∧
    (rest ≠ [] ∨ u.pending = [] → (u.keep rest).overflow = u.overflow) := by
  unfold NoticeUnit.keep
  dsimp only
  refine ⟨fun hr hp => ?_, fun h => ?_⟩
  · rw [hr, List.isEmpty_eq_false_iff.mpr hp]
    rfl
  · rcases h with hr | hp
    · rw [List.isEmpty_eq_false_iff.mpr hr]
      rfl
    · rw [hp]
      cases rest.isEmpty <;> rfl

theorem NoticeUnit.attention_iff (u : NoticeUnit) :
    u.attention = true ↔ ∃ n ∈ u.pending, u.floor < u.levels.get n.cls := by
  simp only [NoticeUnit.attention, List.any_eq_true, decide_eq_true_eq]

theorem TubeMap.noTubeAt_false {m : TubeMap} {p : Option Pos} (h : p = none ∨ ∃ x i, p = some x ∧ m.at x = some i) :
    m.noTubeAt p = false := by
  rcases h with rfl | ⟨x, i, rfl, hi⟩
  · rfl
  · show (m.at x).isNone = false
    rw [hi]
    rfl

/-- The removal of a selected notice (R189, R192). -/
theorem NoticeUnit.remove_some {u : NoticeUnit} {n : Notice} (h : n ∈ u.pending) : u.remove (some n) =
    { u with pending := u.pending.erase n, overflow := u.overflow && decide (u.pending.erase n ≠ []) } := by
  unfold NoticeUnit.remove NoticeUnit.keep
  dsimp only
  rw [List.isEmpty_eq_false_iff.mpr (List.ne_nil_of_mem h)]
  cases u.pending.erase n <;> simp

/-- Settles O43: the items by class, and the four commands. -/
theorem noticeCommands : Obligations.NoticeCommands := by
  unfold Obligations.NoticeCommands
  refine fun rq s => ⟨fun n b hb => ?items, fun cls level h => ?level, fun floor hf h => ?floor, fun k p h => ?watch,
    fun h => ?take⟩
  case items =>
    subst hb
    refine ⟨fun h => ?_, fun k h hk => ?_, fun k h hk => ?_, fun k h hk => by rw [noticeItem_link h hk]; rfl,
      fun k h hk => ?_, fun h => by rw [noticeItem_interlock h, flag1_eq, flag1_eq]; rfl,
      fun h => by rw [noticeItem_pool h]; rfl, fun h => by rw [noticeItem_campaignComplete h]; rfl⟩
    · rw [noticeItem_tube h]
      exact ⟨fun ht => by rw [ht]; rfl, fun t ht => by rw [ht]; rfl⟩
    · obtain ⟨hnone, hsome⟩ := noticeItem_watch (s := s) h hk
      exact ⟨hnone, fun p i t hw hi ht => by rw [hsome p hw, watchItem_of hi ht]; rfl⟩
    · rw [noticeItem_channel h hk]
      exact ⟨fun hc => by rw [hc]; rfl, fun c hc => by rw [hc]; rfl⟩
    · rw [noticeItem_holdExpired h hk]
      exact ⟨fun hr => by rw [hr]; rfl, fun r hr => by rw [hr]; rfl⟩
  case level =>
    refine ⟨fun hbad => exec_setNoticeLevel_range h hbad, fun c hc hl => ?_⟩
    rw [exec_setNoticeLevel h hc hl]
    obtain ⟨hlevels, hfloor⟩ := s.notices.setLevel_levels c level
    refine ⟨_, rfl, ?_, fun d hd => ?_, NoticeUnit.setLevel_above, fun hzero => ?_, hfloor, rfl, rfl⟩
    · exact (congrArg (Levels.get · c) hlevels).trans (by rw [Levels.get_set, if_pos rfl])
    · exact (congrArg (Levels.get · d) hlevels).trans (by rw [Levels.get_set, if_neg hd.symm])
    · subst hzero
      obtain ⟨hempty, hother⟩ := NoticeUnit.keep_overflow { s.notices with levels := s.notices.levels.set c 0 }
        (s.notices.pending.filter fun n => decide (n.cls ≠ c))
      have hset := s.notices.setLevel_zero c
      unfold State.setNoticeLevel
      rw [State.answer_notices, hset]
      exact ⟨rfl, hempty, hother⟩
  case floor =>
    rw [exec_setFloor h hf]
    refine ⟨_, rfl, rfl, ?_, rfl, rfl⟩
    show (!s.held && NoticeUnit.attention { s.notices with floor }) = true ↔ _
    rw [State.takes_held h, ← NoticeUnit.attention_iff { s.notices with floor }]
    rfl
  case watch =>
    refine ⟨fun x hx hg hnone => ?_, fun hp => ?_⟩
    · subst hx
      rw [exec_setWatch h fun y hy => Option.some.inj hy ▸ hg]
      unfold State.setWatch
      rw [if_pos]
      show (s.map.at x).isNone = true
      rw [hnone]
      rfl
    · refine ⟨s.map.watches.set k p, by rw [Four.get_set, if_pos rfl], fun j hj => by rw [Four.get_set, if_neg hj.symm],
        ?_⟩
      rw [exec_setWatch h]
      · unfold State.setWatch
        rw [TubeMap.noTubeAt_false]
        · rfl
        · rcases hp with hp | ⟨x, i, hp, -, hi⟩
          · exact .inl hp
          · exact .inr ⟨x, i, hp, hi⟩
      · rintro x rfl
        rcases hp with hp | ⟨y, i, hp, hg, -⟩
        · exact nomatch hp
        · exact Option.some.inj hp ▸ hg
  case take =>
    rw [exec_takeNotice h]
    unfold State.takeNotice
    dsimp only
    cases hn : highestNotice s.notices.levels s.notices.pending with
    | none =>
      refine ⟨fun _ => rfl, fun hne => absurd (highestNotice_none hn) hne⟩
    | some n =>
      obtain ⟨hmem, hall⟩ := highestNotice_spec hn
      refine ⟨fun hempty => absurd hempty (List.ne_nil_of_mem hmem), fun _ => ⟨n, hmem, fun m hm => ?_, ?_⟩⟩
      · exact (hall m hm).imp_right (Notice.lower_iff _ _ _).mp
      · rw [NoticeUnit.remove_some hmem]
        rfl

end Sys2Proof.Machine
end

section
/-! The records of 11.4, byte by byte (O41). -/

namespace Sys2Proof.Machine

/-! ## Numbers out of their bytes -/

theorem bytesNat_byte1 (n : Nat) : bytesNat (byte1 n) = n % 256 := by
  simp [bytesNat, byte1]

theorem bytesNat_byte2_mod (n : Nat) : bytesNat (byte2 n) = n % 65536 := by
  simp [bytesNat, byte2]
  omega

theorem bytesNat_byte3 (n : Nat) : bytesNat (byte3 n) = n % 16777216 := by
  simp [bytesNat, byte3, byte2]
  omega

theorem bytesNat_byte4 (n : Nat) : bytesNat (byte4 n) = n % 4294967296 := by
  simp [bytesNat, byte4, byte3, byte2]
  omega

theorem flagsNat_lt (l : List Bool) : flagsNat l < 2 ^ l.length := by
  induction l with
  | nil => decide
  | cons x l ih =>
    rw [flagsNat, List.length_cons, Nat.pow_succ]
    have := x.toNat_le
    omega

section Fields

variable {b : List Byte} {k n : Nat}

/-- A stretch within a stretch of a body. -/
theorem stretch {m : List Byte} {a : Nat} (h : (b.drop a).take n = m) (i len : Nat) (hi : i + len ≤ n) :
    (b.drop (a + i)).take len = (m.drop i).take len := by
  subst h
  rw [List.drop_take, List.take_take, List.drop_drop, Nat.min_eq_left (by omega)]

/-- A field within a stretch of a body is that field of the stretch. -/
theorem field_within {m : List Byte} {a i len : Nat} (h : (b.drop a).take n = m) (hi : i + len ≤ n) :
    field b (a + i) len = field m i len := by
  exact congrArg bytesNat (stretch h i len hi)

theorem field_byte {x : Byte} (h : (b.drop k).take 1 = [x]) : field b k 1 = x.toNat :=
  (congrArg bytesNat h).trans (by simp [bytesNat])

theorem field_byte1 (h : (b.drop k).take 1 = byte1 n) : field b k 1 = n % 256 :=
  (congrArg bytesNat h).trans (bytesNat_byte1 n)

theorem field_code (h : (b.drop k).take 1 = byte1 n) (hn : n < 256) : field b k 1 = n :=
  (field_byte1 h).trans (Nat.mod_eq_of_lt hn)

theorem field_byte2 (h : (b.drop k).take 2 = byte2 n) : field b k 2 = n % 65536 :=
  (congrArg bytesNat h).trans (bytesNat_byte2_mod n)

theorem field_byte3 (h : (b.drop k).take 3 = byte3 n) : field b k 3 = n % 16777216 :=
  (congrArg bytesNat h).trans (bytesNat_byte3 n)

theorem field_byte4 (h : (b.drop k).take 4 = byte4 n) : field b k 4 = n % 4294967296 :=
  (congrArg bytesNat h).trans (bytesNat_byte4 n)

theorem field_flag1 {x : Bool} (h : (b.drop k).take 1 = flag1 x) : field b k 1 = x.toNat :=
  field_code h (by cases x <;> decide)

theorem field_flags {l : List Bool} (h : (b.drop k).take 1 = byte1 (flagsNat l)) (hl : l.length ≤ 8) :
    field b k 1 = flagsNat l :=
  field_code h ((flagsNat_lt l).trans_le (Nat.pow_le_pow_right (by decide) hl))

/-- A field of 11.1 that holds FFh for an absent value. -/
theorem field_absentFF {o : Option Nat} (h : (b.drop k).take 1 = absentFF o) (ho : ∀ x, o = some x → x < 256) :
    field b k 1 = o.getD 255 :=
  field_code h (by cases o with | none => decide | some x => exact ho x rfl)

end Fields

/-! ## Records in a row -/

/-- The record at place `j` of records of `n` bytes each. -/
theorem flatMap_record {α : Type} {f : α → List Byte} {n : Nat} (hf : ∀ x, (f x).length = n) {l : List α} {j : Nat} {x : α}
    (h : l[j]? = some x) : ((l.flatMap f).drop (n * j)).take n = f x := by
  induction l generalizing j with
  | nil => exact nomatch h
  | cons y l ih =>
    rw [List.flatMap_cons]
    cases j with
    | zero =>
      obtain rfl := Option.some.inj h
      rw [Nat.mul_zero, List.drop_zero, ← hf y, List.take_left]
    | succ j =>
      rw [Nat.mul_succ, Nat.add_comm, ← List.drop_drop, ← hf y, List.drop_left, hf y]
      exact ih h

theorem flatMap_length {α : Type} {f : α → List Byte} {n : Nat} (hf : ∀ x, (f x).length = n) (l : List α) :
    (l.flatMap f).length = n * l.length := by
  induction l with
  | nil => rfl
  | cons y l ih => rw [List.flatMap_cons, List.length_append, hf, ih, List.length_cons, Nat.mul_succ, Nat.add_comm]

theorem Four.toList_get {α : Type} (v : Four α) (k : Fin 4) : v.toList[k.val]? = some (v.get k) := by
  match k with
  | 0 | 1 | 2 | 3 => rfl

end Sys2Proof.Machine
end

section
/-! The queries (O41): what each answers, and the fields of its record. -/

namespace Sys2Proof.Machine

/-! ## Codes of one byte -/

theorem TubeState.code_lt (x : TubeState) : x.code < 256 := by cases x <;> decide
theorem ChanState.code_lt (x : ChanState) : x.code < 256 := by cases x <;> decide
theorem EntryStatus.code_lt (x : EntryStatus) : x.code < 256 := by cases x <;> decide
theorem Face.code_lt (x : Face) : x.code < 256 := by cases x <;> decide
theorem Axis.code_lt (x : Axis) : x.code < 256 := by cases x <;> decide
theorem Corner.code_lt (x : Corner) : x.code < 256 := by cases x <;> decide
theorem StallTick.code_lt (x : StallTick) : x.code < 256 := by cases x <;> decide
theorem TimerMode.code_lt (x : TimerMode) : x.code < 256 := by cases x <;> decide
theorem RxState.code_lt (x : RxState) : x.code < 256 := by cases x <;> decide
theorem ReportKind.code_lt (x : ReportKind) : x.code < 256 := by cases x <;> decide
theorem Policy.code_lt (x : Policy) : x.code < 256 := by cases x <;> decide
theorem Phase.code_lt (x : Phase) : x.code < 256 := by cases x <;> decide

/-- A seat or a channel in its byte. -/
theorem Fin.val_lt_byte {n : Nat} (hn : n ≤ 256) (x : Fin n) : x.val < 256 := x.isLt.trans_le hn

theorem ChanState.code_map_lt (o : Option ChanState) (x : Nat) (h : o.map ChanState.code = some x) : x < 256 := by
  obtain ⟨y, -, rfl⟩ := Option.map_eq_some_iff.mp h
  exact y.code_lt

/-! ## The requests -/

theorem exec_readTube {rq : Requester} {s : State} {name : TubeName} (h : s.takes .readTube rq = true)
    (hn : name.inRange = true) : exec (.readTube rq name) s = .next (s.readTube name) :=
  (exec_accepted (i := .readTube rq name) h rfl hn).trans rfl

theorem exec_readEntry {rq : Requester} {s : State} {ref : EntryRef} (h : s.takes .readEntry rq = true)
    (hn : ref.number < 16384) : exec (.readEntry rq ref) s = .next (s.readEntry ref) :=
  (exec_accepted (i := .readEntry rq ref) h rfl (decide_eq_true hn)).trans rfl

theorem exec_findTubeVisit {s : State} {x : BitVec 10} {cell : Nat} (hh : s.held = false)
    (hm : s.port.mode = .executing) (hw : s.port.work = some (.findTube x cell none)) (hc : cell < 65536) :
    exec .findTubeVisit s = .next (s.begin (.findTube x (cell + 1) (s.foundAt x cell))) := by
  have hv : s.findVisit = s.begin (.findTube x (cell + 1) (s.foundAt x cell)) := by
    unfold State.findVisit
    rw [hm, hw]
    exact if_neg (Nat.not_le.mpr hc)
  rw [show exec .findTubeVisit s = .next (s.whenRunning State.findVisit) from rfl, State.whenRunning_running hh, hv]

theorem State.foundAt_match {s : State} {x : BitVec 10} {cell i : Nat} {t : Tube} (hi : s.map.at (cellPos cell) = some i)
    (ht : s.tube i = some t) (hx : x.getLsbD t.state.code = true) :
    s.foundAt x cell = some { index := i, pos := cellPos cell, state := t.state } := by
  unfold State.foundAt
  rw [hi, Option.bind_some, ht]
  exact if_pos hx

theorem State.foundAt_none {s : State} {x : BitVec 10} {cell : Nat}
    (h : ∀ (i : Nat) (t : Tube), s.map.at (cellPos cell) = some i → s.tube i = some t → x.getLsbD t.state.code = false) :
    s.foundAt x cell = none := by
  unfold State.foundAt
  split
  · rfl
  · next i t hb =>
    obtain ⟨j, hj, hm⟩ := Option.bind_eq_some_iff.mp hb
    obtain ⟨u, hu, hp⟩ := Option.map_eq_some_iff.mp hm
    cases hp
    rw [h i t hj hu, if_neg (by decide)]

/-! ## The entries of a tube in a row -/

theorem entryBody_length (r : EntryRef) (e : Entry) : (entryBody r e).length = 31 := by
  obtain ⟨p0, p1, hp, -⟩ := callBody_bytes e.primary
  obtain ⟨s0, s1, hs, -⟩ := callBody_bytes e.secondary
  obtain ⟨r0, r1, hr, -⟩ := callBody_bytes e.resolution
  obtain ⟨o0, o1, ho, -⟩ := outcomeBody_bytes e.outcome
  unfold entryBody
  rw [hp, hs, hr, ho]
  simp only [List.length_append, measuredBody, EntryRef.bytes, byte1, byte2, flag1, signed2, absentFF, List.length_cons,
    List.length_nil]

/-- A tube whose list names entries in use alone lists each. -/
theorem Store.listed_present {st : Store} {l : List Nat} (h : ∀ n ∈ l, st.entry n ≠ none) :
    (st.listed l).length = l.length ∧
    ∀ (j n : Nat) (e : Entry), l[j]? = some n → st.entry n = some e → (st.listed l)[j]? = some (n, e) := by
  induction l with
  | nil => exact ⟨rfl, fun j n e hj => nomatch hj⟩
  | cons m l ih =>
    obtain ⟨hlen, hat⟩ := ih fun n hn => h n (List.mem_cons_of_mem m hn)
    obtain ⟨f, hf⟩ := Option.ne_none_iff_exists'.mp (h m List.mem_cons_self)
    have hcons : st.listed (m :: l) = (m, f) :: st.listed l := by
      unfold Store.listed
      rw [List.filterMap_cons, hf]
      rfl
    rw [hcons]
    refine ⟨by rw [List.length_cons, List.length_cons, hlen], fun j n e hj he => ?_⟩
    cases j with
    | zero =>
      obtain rfl := Option.some.inj hj
      obtain rfl := Option.some.inj (hf.symm.trans he)
      rfl
    | succ j => exact hat j n e hj he

/-! ## The two bytes of a call and of an outcome within a record -/

theorem field_pair {b : List Byte} {k : Nat} {x y : Byte} (h : (b.drop k).take 2 = [x, y]) :
    field b k 1 = x.toNat ∧ field b (k + 1) 1 = y.toNat := by
  have hx := field_within (i := 0) (len := 1) h (by decide)
  have hy := field_within (i := 1) (len := 1) h (by decide)
  rw [hy]
  exact ⟨hx.trans (field_one x [y]), field_one y []⟩

/-! ## The status record in its parts (11.4) -/

/-- A stretch of a body that stands behind others. -/
theorem drop_take_part {pre mid post : List Byte} {a n : Nat} (hp : pre.length = a) (hm : mid.length = n) :
    ((pre ++ (mid ++ post)).drop a).take n = mid := by
  subst hp hm
  rw [List.drop_left, List.take_left]

/-- The points of a curve, three bytes each. -/
theorem curve_point {f : FreqSettings} {i : Nat} {x : CurvePoint} (hi : i < 8) (hx : (f.curve.getD [])[i]? = some x) :
    field (freqBody f) (3 + 3 * i) 2 = x.phase % 65536 ∧ field (freqBody f) (5 + 3 * i) 1 = x.depth % 256 := by
  generalize hl : f.curve.getD [] = l at hx
  have hpoint : ((l.flatMap fun p => byte2 p.phase ++ byte1 p.depth).drop (3 * i)).take 3 = byte2 x.phase ++ byte1 x.depth :=
    flatMap_record (f := fun p : CurvePoint => byte2 p.phase ++ byte1 p.depth) (fun _ => rfl) hx
  have hlen : 3 * i + 3 ≤ (l.flatMap fun p => byte2 p.phase ++ byte1 p.depth).length := by
    rw [flatMap_length (n := 3) (fun _ => rfl)]
    have := (List.getElem?_eq_some_iff.mp hx).1
    omega
  have hin : ((freqBody f).drop (3 + 3 * i)).take 3 = byte2 x.phase ++ byte1 x.depth := by
    unfold freqBody
    dsimp only
    rw [hl, ← hpoint, ← List.drop_drop, show ((byte2 f.threshold ++ byte1 l.length ++
      ((l.flatMap fun p => byte2 p.phase ++ byte1 p.depth) ++ List.replicate 24 0#8).take 24).drop 3) =
      ((l.flatMap fun p => byte2 p.phase ++ byte1 p.depth) ++ List.replicate 24 0#8).take 24 from rfl,
      List.drop_take, List.take_take, Nat.min_eq_left (by omega), List.drop_append_of_le_length (by omega),
      List.take_append_of_le_length (by rw [List.length_drop]; omega)]
  have h0 := field_within (i := 0) (len := 2) hin (by decide)
  have h2 := field_within (i := 2) (len := 1) hin (by decide)
  exact ⟨h0.trans (field_byte2 rfl), (congrArg (field (freqBody f) · 1) (by omega)).trans (h2.trans (field_byte1 rfl))⟩

end Sys2Proof.Machine
end

section
/-! O41, record by record. -/

namespace Sys2Proof.Machine

theorem tubeBody_length (i : Nat) (t : Tube) : (tubeBody i t).length = 15 := rfl

/-- The bits of a shifted word's lowest byte. -/
theorem toNat_shift_testBit {w : Nat} (v : BitVec w) (k i : Nat) (hi : i < 8) :
    ((v >>> k).truncate 8).toNat.testBit i = v.getLsbD (k + i) := by
  rw [BitVec.testBit_toNat, BitVec.getLsbD_setWidth, BitVec.getLsbD_ushiftRight, decide_eq_true hi, Bool.true_and]

/-- The tube record (11.4). -/
theorem tubeBody_fields {i : Nat} {t : Tube} {b : List Byte} (hb : b = tubeBody i t) :
    b.length = 15 ∧
      field b 0 2 = i % 65536 ∧ field b 2 1 = t.pos.row % 256 ∧ field b 3 1 = t.pos.col % 256 ∧
      field b 4 1 = t.zone % 256 ∧ field b 5 1 = t.state.code ∧
      field b 6 1 = t.planned.toNat + 2 * t.primaryMark.toNat + 4 * t.secondaryMark.toNat +
        8 * t.truncated.toNat + 16 * t.plugCampaign.isSome.toNat ∧
      (t.claim = none → field b 7 1 = 255) ∧ (∀ n, t.claim = some n → field b 7 1 = n.val) ∧
      field b 8 1 = t.passes % 256 ∧ field b 9 1 = t.attempts % 256 ∧ field b 10 1 = t.entries.length % 256 ∧
      field b 11 1 = t.worstFinal.getD 255 % 256 ∧ field b 12 1 = t.history.getD 255 % 256 ∧
      field b 13 2 = t.plugCampaign.getD 0 % 65536 := by
  simp only [tubeBody, Pos.bytes, absentFF, byte1, byte2, List.cons_append, List.nil_append] at hb
  subst hb
  refine ⟨rfl, field_byte2 rfl, field_byte1 rfl, field_byte1 rfl, field_byte1 rfl, field_code rfl t.state.code_lt,
    (field_flags rfl (Nat.le_of_ble_eq_true rfl)).trans ?_, fun hc => ?_, fun n hc => ?_, field_byte1 rfl,
    field_byte1 rfl, field_byte1 rfl, field_byte1 rfl, field_byte1 rfl, field_byte2 rfl⟩
  · simp only [flagsNat]
    omega
  · rw [hc]
    rfl
  · rw [hc]
    exact field_code rfl (Fin.val_lt_byte (by decide) n)

/-- The entry record (11.4). -/
theorem entryBody_fields {r : EntryRef} {e : Entry} {b : List Byte} (hb : b = entryBody r e) :
    b.length = 31 ∧
      field b 0 2 = r.number % 65536 ∧ field b 2 1 = r.issue % 256 ∧ field b 3 2 = e.tube % 65536 ∧
      field b 5 2 = e.measured.axial % 65536 ∧ field b 7 1 = e.freq.val + 1 ∧
      field b 8 1 = e.measured.extent % 256 ∧ field b 9 2 = e.measured.phase % 65536 ∧
      field b 11 2 = e.measured.amplitude % 65536 ∧ field b 13 1 = e.measured.saturated.toNat ∧
      field b 14 1 = e.measured.depth % 256 ∧ field b 15 1 = e.measured.landmark.code % 256 ∧
      (field b 16 2 : Int) = e.measured.offset % 65536 ∧ field b 18 1 = e.sightings % 256 ∧
      field b 19 1 = e.firstPass % 256 ∧ field b 20 1 = e.status.code ∧
      (∀ (c : Option Call) (at' : Nat), (c, at') ∈ [(e.primary, 21), (e.secondary, 23), (e.resolution, 25)] →
        (c = none → field b at' 1 = 0 ∧ field b (at' + 1) 1 = 255) ∧
        (∀ d, c = some (.depth d) → field b at' 1 = 1 ∧ field b (at' + 1) 1 = d % 256) ∧
        (∀ x, c = some x → (∀ d, x ≠ .depth d) → field b at' 1 = x.code ∧ field b (at' + 1) 1 = 255)) ∧
      (e.outcome = none → field b 27 1 = 0 ∧ field b 28 1 = 255) ∧
      (∀ d, e.outcome = some (.depth d) → field b 27 1 = 1 ∧ field b 28 1 = d % 256) ∧
      (e.outcome = some .nonQuantifiable → field b 27 1 = 2 ∧ field b 28 1 = 255) ∧
      field b 29 1 = e.reference.getD 255 % 256 ∧ (e.holder = none → field b 30 1 = 255) ∧
      ∀ k, e.holder = some k → field b 30 1 = k.val := by
  obtain ⟨p0, p1, hp, hpspec⟩ := callBody_bytes e.primary
  obtain ⟨s0, s1, hs, hsspec⟩ := callBody_bytes e.secondary
  obtain ⟨r0, r1, hr, hrspec⟩ := callBody_bytes e.resolution
  obtain ⟨o0, o1, ho, honone, hodepth, honq⟩ := outcomeBody_bytes e.outcome
  obtain ⟨x, y, hoffset, hxy⟩ := signed2_bytes e.measured.offset
  simp only [entryBody, measuredBody, EntryRef.bytes, hp, hs, hr, ho, hoffset, absentFF, flag1, byte1, byte2,
    List.cons_append, List.nil_append] at hb
  subst hb
  refine ⟨rfl, field_byte2 rfl, field_byte1 rfl, field_byte2 rfl, field_byte2 rfl,
    field_code rfl (Nat.lt_of_le_of_lt e.freq.isLt (by decide)), field_byte1 rfl, field_byte2 rfl, field_byte2 rfl,
    field_flag1 rfl, field_byte1 rfl, field_byte1 rfl, ?_, field_byte1 rfl, field_byte1 rfl,
    field_code rfl e.status.code_lt, fun c k hc => ?_, fun h => ?_, fun d h => ?_, fun h => ?_, field_byte1 rfl,
    fun h => ?_, fun k h => ?_⟩
  · rw [← hxy]
    exact congrArg Int.ofNat (field_two x y [])
  · simp only [List.mem_cons, Prod.mk.injEq, List.not_mem_nil, or_false] at hc
    rcases hc with ⟨rfl, rfl⟩ | ⟨rfl, rfl⟩ | ⟨rfl, rfl⟩
    · rw [(field_pair (x := p0) (y := p1) rfl).1, (field_pair (x := p0) (y := p1) rfl).2]
      exact hpspec
    · rw [(field_pair (x := s0) (y := s1) rfl).1, (field_pair (x := s0) (y := s1) rfl).2]
      exact hsspec
    · rw [(field_pair (x := r0) (y := r1) rfl).1, (field_pair (x := r0) (y := r1) rfl).2]
      exact hrspec
  · rw [(field_pair (x := o0) (y := o1) rfl).1, (field_pair (x := o0) (y := o1) rfl).2]
    exact honone h
  · rw [(field_pair (x := o0) (y := o1) rfl).1, (field_pair (x := o0) (y := o1) rfl).2]
    exact hodepth d h
  · rw [(field_pair (x := o0) (y := o1) rfl).1, (field_pair (x := o0) (y := o1) rfl).2]
    exact honq h
  · rw [h]
    rfl
  · rw [h]
    exact field_code rfl (Fin.val_lt_byte (by decide) k)


/-- The tube record and its entries in a row (11.4). -/
theorem readTubeBody_fields {st : Store} {i : Nat} {t : Tube} {b : List Byte} (hb : b = readTubeBody st i t)
    (hl : ∀ n ∈ t.entries, st.entry n ≠ none) :
    b.length = 15 + 31 * t.entries.length ∧ b.take 15 = tubeBody i t ∧
      ∀ (j n : Nat) (e : Entry), t.entries[j]? = some n → st.entry n = some e →
        (b.drop (15 + 31 * j)).take 31 = entryBody { number := n, issue := (st.slot n).issue } e := by
  subst hb
  obtain ⟨hlen, hat⟩ := Store.listed_present hl
  have hf : ∀ ne : Nat × Entry, (entryBody (st.refOf ne.1) ne.2).length = 31 := fun _ => entryBody_length _ _
  unfold readTubeBody
  refine ⟨?_, List.take_left' (tubeBody_length i t), fun j n e hj he => ?_⟩
  · rw [List.length_append, flatMap_length hf, hlen, tubeBody_length]
  · rw [← List.drop_drop, List.drop_left' (tubeBody_length i t)]
    exact (flatMap_record hf (hat j n e hj he)).trans rfl

/-! ## The channel record -/

theorem configBody_length (c : Config) : (configBody c).length = 29 := by
  simp only [configBody, List.length_append, flag1, byte1, byte2, List.length_cons, List.length_nil, List.length_map,
    List.length_range']

theorem calBody_length (c : Calibration) : (calBody c).length = 18 := rfl

/-- Bytes 0 to 17 of the channel record (11.4). -/
def channelHead (c : Channel) (p : Option Pos) : List Byte :=
  byte1 c.state.code ++ absentFF (c.prior.map ChanState.code) ++ absentFF (c.interrupted.map ChanState.code) ++
  byte1 (flagsNat [c.claim.isSome, claimFlag Claim.farEnd c.claim, claimFlag Claim.dataGap c.claim, c.exhausted,
    p.isSome, c.lastCount.isSome]) ++
  claimBody c.claim ++ byte1 c.timer.count ++ byte1 c.timer.mode.code ++ byte3 (c.lastCount.getD 0) ++ posOrZero p

theorem channelBody_split (c : Channel) (p : Option Pos) :
    channelBody c p = channelHead c p ++ (configBody c.config ++ calBody c.cal) := by
  simp only [channelBody, channelHead, List.append_assoc]

theorem channelHead_length (c : Channel) (p : Option Pos) : (channelHead c p).length = 18 := by
  unfold channelHead
  cases c.claim <;> cases p <;> rfl

theorem channelHead_fields {c : Channel} {p : Option Pos} {b rest : List Byte}
    (hb : b = channelHead c p ++ rest) :
    field b 0 1 = c.state.code ∧ field b 1 1 = (c.prior.map ChanState.code).getD 255 ∧
      field b 2 1 = (c.interrupted.map ChanState.code).getD 255 ∧
      (c.claim = none → field b 3 1 = 8 * c.exhausted.toNat + 16 * p.isSome.toNat + 32 * c.lastCount.isSome.toNat ∧
        field b 4 7 = 0) ∧
      (∀ k, c.claim = some k →
        field b 3 1 = 1 + 2 * k.farEnd.toNat + 4 * k.dataGap.toNat + 8 * c.exhausted.toNat + 16 * p.isSome.toNat +
          32 * c.lastCount.isSome.toNat ∧
        field b 4 2 = k.tube % 65536 ∧ field b 6 1 = k.pos.row % 256 ∧ field b 7 1 = k.pos.col % 256 ∧
        field b 8 1 = k.face.code ∧ field b 9 1 = k.pass % 256 ∧ field b 10 1 = k.prior.code) ∧
      field b 11 1 = c.timer.count % 256 ∧ field b 12 1 = c.timer.mode.code ∧
      field b 13 3 = c.lastCount.getD 0 % 16777216 ∧
      (p = none → field b 16 2 = 0) ∧ (∀ x, p = some x → field b 16 1 = x.row % 256 ∧ field b 17 1 = x.col % 256) := by
  obtain ⟨c0, c1, c2, c3, c4, c5, c6, hclaim⟩ : ∃ c0 c1 c2 c3 c4 c5 c6, claimBody c.claim = [c0, c1, c2, c3, c4, c5, c6] := by
    cases c.claim <;> exact ⟨_, _, _, _, _, _, _, rfl⟩
  obtain ⟨p0, p1, hcursor⟩ : ∃ p0 p1, posOrZero p = [p0, p1] := by
    cases p <;> exact ⟨_, _, rfl⟩
  simp only [channelHead, hclaim, hcursor, absentFF, byte1, byte2, byte3, List.cons_append, List.nil_append] at hb
  have hclaimAt : (b.drop 4).take 7 = claimBody c.claim := by rw [hb, hclaim]; rfl
  have hcursorAt : (b.drop 16).take 2 = posOrZero p := by rw [hb, hcursor]; rfl
  have hflags : field b 3 1 = flagsNat [c.claim.isSome, claimFlag Claim.farEnd c.claim, claimFlag Claim.dataGap c.claim,
      c.exhausted, p.isSome, c.lastCount.isSome] := by
    rw [hb]
    exact field_flags rfl (Nat.le_of_ble_eq_true rfl)
  refine ⟨by rw [hb]; exact field_code rfl c.state.code_lt, by rw [hb]; exact field_absentFF rfl (ChanState.code_map_lt _),
    by rw [hb]; exact field_absentFF rfl (ChanState.code_map_lt _), fun hnone => ?_, fun k hk => ?_,
    by rw [hb]; exact field_byte1 rfl, by rw [hb]; exact field_code rfl c.timer.mode.code_lt,
    by rw [hb]; exact field_byte3 rfl, fun hnone => ?_, fun x hx => ?_⟩
  · rw [hnone] at hflags hclaimAt
    exact ⟨hflags.trans (by simp only [flagsNat, claimFlag, Option.isSome_none, Bool.toNat_false]; omega),
      congrArg bytesNat hclaimAt⟩
  · rw [hk] at hflags hclaimAt
    exact ⟨hflags.trans (by simp only [flagsNat, claimFlag, Option.isSome_some, Bool.toNat_true]; omega),
      field_byte2 (stretch hclaimAt 0 2 (by decide)), field_byte1 (stretch hclaimAt 2 1 (by decide)),
      field_byte1 (stretch hclaimAt 3 1 (by decide)), field_code (stretch hclaimAt 4 1 (by decide)) k.face.code_lt,
      field_byte1 (stretch hclaimAt 5 1 (by decide)), field_code (stretch hclaimAt 6 1 (by decide)) k.prior.code_lt⟩
  · rw [hnone] at hcursorAt
    exact congrArg bytesNat hcursorAt
  · rw [hx] at hcursorAt
    exact ⟨field_byte1 (stretch hcursorAt 0 1 (by decide)), field_byte1 (stretch hcursorAt 1 1 (by decide))⟩

/-- Bytes 18 to 46 of the channel record: the configuration (11.4). -/
theorem configBody_fields {c : Config} {b : List Byte} (h : (b.drop 18).take 29 = configBody c) :
    field b 18 1 = c.face.code ∧ field b 19 2 = c.window.rowLo % 65536 ∧
      field b 21 2 = c.window.rowHi % 65536 ∧ field b 23 2 = c.window.colLo % 65536 ∧
      field b 25 2 = c.window.colHi % 65536 ∧
      (∀ k : Fin 8, (field b 27 1).testBit k.val = c.keepouts.get k) ∧
      field b 28 1 = c.majorAxis.code ∧ field b 29 1 = c.startCorner.code ∧
      field b 30 1 = c.serpentine.toNat ∧ field b 31 1 = c.mix.toNat ∧
      (∀ k i, k < 8 → i < 8 → (field b (32 + k) 1).testBit i = c.pattern.getLsbD (8 * k + i)) ∧
      (∀ k i, k < 2 → i < 8 → (field b (40 + k) 1).testBit i = c.zones.getLsbD (8 * k + i)) ∧
      field b 42 1 = c.states.untested.toNat + 2 * c.states.retest.toNat ∧
      field b 43 1 = c.priority % 256 ∧ field b 44 1 = c.stallTick.code ∧
      field b 45 1 = c.stallReload % 256 ∧
      field b 46 1 = c.reloads.enter.toNat + 2 * c.reloads.progress.toNat +
        4 * c.reloads.indication.toNat + 8 * c.reloads.farEnd.toNat +
        16 * c.reloads.heartbeat.toNat := by
  simp only [configBody, flag1, byte1, byte2, List.range'_succ, List.range'_zero, List.map_cons, List.map_nil,
    List.cons_append, List.nil_append] at h
  refine ⟨field_code (stretch h 0 1 (by decide)) c.face.code_lt, field_byte2 (stretch h 1 2 (by decide)),
    field_byte2 (stretch h 3 2 (by decide)), field_byte2 (stretch h 5 2 (by decide)),
    field_byte2 (stretch h 7 2 (by decide)), fun k => ?_, field_code (stretch h 10 1 (by decide)) c.majorAxis.code_lt,
    field_code (stretch h 11 1 (by decide)) c.startCorner.code_lt, field_flag1 (stretch h 12 1 (by decide)),
    field_code (stretch h 13 1 (by decide)) c.mix.isLt, fun k i hk hi => ?_, fun k i hk hi => ?_,
    (field_flags (stretch h 24 1 (by decide)) (Nat.le_of_ble_eq_true rfl)).trans ?_,
    field_byte1 (stretch h 25 1 (by decide)), field_code (stretch h 26 1 (by decide)) c.stallTick.code_lt,
    field_byte1 (stretch h 27 1 (by decide)),
    (field_flags (stretch h 28 1 (by decide)) (Nat.le_of_ble_eq_true rfl)).trans ?_⟩
  · rw [field_byte1 (n := flagsNat c.keepouts.toList) (stretch h 9 1 (by decide))]
    exact flagsNat_testBit c.keepouts k
  · have hbyte : field b (32 + k) 1 = ((c.pattern >>> (8 * k)).truncate 8).toNat := by
      interval_cases k
      · exact field_byte (stretch h 14 1 (by decide))
      · exact field_byte (stretch h 15 1 (by decide))
      · exact field_byte (stretch h 16 1 (by decide))
      · exact field_byte (stretch h 17 1 (by decide))
      · exact field_byte (stretch h 18 1 (by decide))
      · exact field_byte (stretch h 19 1 (by decide))
      · exact field_byte (stretch h 20 1 (by decide))
      · exact field_byte (stretch h 21 1 (by decide))
    rw [hbyte, toNat_shift_testBit c.pattern (8 * k) i hi]
  · have hbyte : field b (40 + k) 1 = ((c.zones >>> (8 * k)).truncate 8).toNat := by
      interval_cases k
      · exact field_byte (stretch h 22 1 (by decide))
      · exact field_byte (stretch h 23 1 (by decide))
    rw [hbyte, toNat_shift_testBit c.zones (8 * k) i hi]
  · simp only [flagsNat]
    omega
  · simp only [flagsNat]
    omega

/-- Bytes 47 to 64 of the channel record: the calibration (11.4). -/
theorem calBody_fields {c : Calibration} {b : List Byte} (h : (b.drop 47).take 18 = calBody c) :
    field b 47 2 = c.scale % 65536 ∧
      ∀ f : Fin 4, field b (49 + 4 * f.val) 2 = c.rotation.get f % 65536 ∧
        field b (51 + 4 * f.val) 2 = c.factor.get f % 65536 := by
  simp only [calBody, byte2, fourNumbers, List.flatMap_cons, List.flatMap_nil, List.cons_append, List.nil_append] at h
  refine ⟨field_byte2 (stretch h 0 2 (by decide)), fun f => ?_⟩
  match f with
  | 0 => exact ⟨field_byte2 (stretch h 2 2 (by decide)), field_byte2 (stretch h 4 2 (by decide))⟩
  | 1 => exact ⟨field_byte2 (stretch h 6 2 (by decide)), field_byte2 (stretch h 8 2 (by decide))⟩
  | 2 => exact ⟨field_byte2 (stretch h 10 2 (by decide)), field_byte2 (stretch h 12 2 (by decide))⟩
  | 3 => exact ⟨field_byte2 (stretch h 14 2 (by decide)), field_byte2 (stretch h 16 2 (by decide))⟩

/-- The channel record (11.4). -/
theorem channelBody_fields {c : Channel} {p : Option Pos} {b : List Byte} (hb : b = channelBody c p) :
    b.length = 65 ∧
      field b 0 1 = c.state.code ∧ field b 1 1 = (c.prior.map ChanState.code).getD 255 ∧
      field b 2 1 = (c.interrupted.map ChanState.code).getD 255 ∧
      (c.claim = none → field b 3 1 = 8 * c.exhausted.toNat + 16 * p.isSome.toNat + 32 * c.lastCount.isSome.toNat ∧
        field b 4 7 = 0) ∧
      (∀ k, c.claim = some k →
        field b 3 1 = 1 + 2 * k.farEnd.toNat + 4 * k.dataGap.toNat + 8 * c.exhausted.toNat + 16 * p.isSome.toNat +
          32 * c.lastCount.isSome.toNat ∧
        field b 4 2 = k.tube % 65536 ∧ field b 6 1 = k.pos.row % 256 ∧ field b 7 1 = k.pos.col % 256 ∧
        field b 8 1 = k.face.code ∧ field b 9 1 = k.pass % 256 ∧ field b 10 1 = k.prior.code) ∧
      field b 11 1 = c.timer.count % 256 ∧ field b 12 1 = c.timer.mode.code ∧
      field b 13 3 = c.lastCount.getD 0 % 16777216 ∧
      (p = none → field b 16 2 = 0) ∧ (∀ x, p = some x → field b 16 1 = x.row % 256 ∧ field b 17 1 = x.col % 256) ∧
      field b 18 1 = c.config.face.code ∧ field b 19 2 = c.config.window.rowLo % 65536 ∧
      field b 21 2 = c.config.window.rowHi % 65536 ∧ field b 23 2 = c.config.window.colLo % 65536 ∧
      field b 25 2 = c.config.window.colHi % 65536 ∧
      (∀ k : Fin 8, (field b 27 1).testBit k.val = c.config.keepouts.get k) ∧
      field b 28 1 = c.config.majorAxis.code ∧ field b 29 1 = c.config.startCorner.code ∧
      field b 30 1 = c.config.serpentine.toNat ∧ field b 31 1 = c.config.mix.toNat ∧
      (∀ k i, k < 8 → i < 8 → (field b (32 + k) 1).testBit i = c.config.pattern.getLsbD (8 * k + i)) ∧
      (∀ k i, k < 2 → i < 8 → (field b (40 + k) 1).testBit i = c.config.zones.getLsbD (8 * k + i)) ∧
      field b 42 1 = c.config.states.untested.toNat + 2 * c.config.states.retest.toNat ∧
      field b 43 1 = c.config.priority % 256 ∧ field b 44 1 = c.config.stallTick.code ∧
      field b 45 1 = c.config.stallReload % 256 ∧
      field b 46 1 = c.config.reloads.enter.toNat + 2 * c.config.reloads.progress.toNat +
        4 * c.config.reloads.indication.toNat + 8 * c.config.reloads.farEnd.toNat +
        16 * c.config.reloads.heartbeat.toNat ∧
      field b 47 2 = c.cal.scale % 65536 ∧
      ∀ f : Fin 4, field b (49 + 4 * f.val) 2 = c.cal.rotation.get f % 65536 ∧
        field b (51 + 4 * f.val) 2 = c.cal.factor.get f % 65536 := by
  rw [channelBody_split] at hb
  have hconfig : (b.drop 18).take 29 = configBody c.config := by
    rw [hb]
    exact drop_take_part (channelHead_length c p) (configBody_length c.config)
  have hcal : (b.drop 47).take 18 = calBody c.cal := by
    rw [hb, ← List.append_assoc, ← List.append_nil (calBody c.cal)]
    refine drop_take_part ?_ (calBody_length c.cal)
    rw [List.length_append, channelHead_length, configBody_length]
  have hlen : b.length = 65 := by
    rw [hb, List.length_append, List.length_append, channelHead_length, configBody_length, calBody_length]
  have hfields := And.intro (channelHead_fields hb) (And.intro (configBody_fields hconfig) (calBody_fields hcal))
  simp only [and_assoc] at hfields
  exact ⟨hlen, hfields⟩

/-! ## The status record -/

/-- Bytes 0 to 18 of the status record (11.4). -/
def statusHead (s : State) : List Byte :=
  byte1 s.map.phase.code ++ byte2 s.map.campaign ++ seekBody s.seekPos s.walker.seek ++
  byte1 (flagsNat s.walker.waiting.toList) ++ byte1 s.walker.clearance ++ byte1 s.engine.val ++ flag1 s.hand.isSome ++
  flag1 s.interlock.low ++ flag1 s.interlock.latch

/-- Bytes 127 to 131 of the status record: the pool (11.4). -/
def statusPool (s : State) : List Byte :=
  byte2 s.store.free.count ++ byte2 s.store.inUse.length ++ flag1 (!s.store.warnArmed)

/-- Bytes 156 to 169 of the status record: the notice unit (11.4). -/
def statusNotices (s : State) : List Byte :=
  byte1 s.notices.pending.length ++ byte1 (flagsNat [s.notices.overflow, s.attn]) ++ byte1 s.notices.floor ++
  s.notices.levels.toList.flatMap byte1

theorem statusBody_split (s : State) : statusBody s s.seekPos =
    statusHead s ++ (s.freqs.toList.flatMap freqBody ++
      (statusPool s ++ (s.seats.toList.flatMap (seatBody s.clock) ++ statusNotices s))) := by
  simp only [statusBody, statusHead, statusPool, statusNotices, List.append_assoc]

theorem statusHead_length (s : State) : (statusHead s).length = 19 := by
  unfold statusHead
  cases s.walker.seek <;> rfl

theorem statusFreqs_length (v : Four FreqSettings) : (v.toList.flatMap freqBody).length = 108 :=
  flatMap_length freqBody_length v.toList

theorem statusSeats_length (clock : Nat) (v : Four Seat) : (v.toList.flatMap (seatBody clock)).length = 24 :=
  flatMap_length (seatBody_length clock) v.toList

theorem statusHead_fields {s : State} {b rest : List Byte} (hb : b = statusHead s ++ rest) :
    field b 0 1 = s.map.phase.code ∧
      field b 1 2 = s.map.campaign % 65536 ∧ (s.walker.seek = none → field b 3 1 = 255 ∧ field b 4 9 = 0) ∧
      (∀ k, s.walker.seek = some k → field b 3 1 = k.chan.val ∧ field b 4 2 = k.index % 65536 ∧
        field b 6 1 = (s.seekPos k).row % 256 ∧ field b 7 1 = (s.seekPos k).col % 256 ∧
        field b 8 4 = k.examined % 4294967296 ∧ field b 12 1 = k.renew.toNat + 2 * k.request.isSome.toNat) ∧
      (∀ k : Fin 8, (field b 13 1).testBit k.val = s.walker.waiting.get k) ∧
      field b 14 1 = s.walker.clearance % 256 ∧ field b 15 1 = s.engine.val ∧
      field b 16 1 = s.hand.isSome.toNat ∧ field b 17 1 = s.interlock.low.toNat ∧
      field b 18 1 = s.interlock.latch.toNat := by
  obtain ⟨x0, x1, x2, x3, x4, x5, x6, x7, x8, x9, hseek⟩ : ∃ x0 x1 x2 x3 x4 x5 x6 x7 x8 x9,
      seekBody s.seekPos s.walker.seek = [x0, x1, x2, x3, x4, x5, x6, x7, x8, x9] := by
    cases s.walker.seek <;> exact ⟨_, _, _, _, _, _, _, _, _, _, rfl⟩
  simp only [statusHead, hseek, flag1, byte1, byte2, List.cons_append, List.nil_append] at hb
  have hat : (b.drop 3).take 10 = seekBody s.seekPos s.walker.seek := by rw [hb, hseek]; rfl
  refine ⟨by rw [hb]; exact field_code rfl s.map.phase.code_lt, by rw [hb]; exact field_byte2 rfl, fun hnone => ?_,
    fun k hk => ?_, fun k => ?_, by rw [hb]; exact field_byte1 rfl,
    by rw [hb]; exact field_code rfl (Fin.val_lt_byte (by decide) s.engine), by rw [hb]; exact field_flag1 rfl,
    by rw [hb]; exact field_flag1 rfl, by rw [hb]; exact field_flag1 rfl⟩
  · rw [hnone] at hat
    exact ⟨congrArg bytesNat (stretch hat 0 1 (by decide)), congrArg bytesNat (stretch hat 1 9 (by decide))⟩
  · rw [hk] at hat
    refine ⟨field_code (stretch hat 0 1 (by decide)) (Fin.val_lt_byte (by decide) k.chan),
      field_byte2 (stretch hat 1 2 (by decide)), field_byte1 (stretch hat 3 1 (by decide)),
      field_byte1 (stretch hat 4 1 (by decide)), field_byte4 (stretch hat 5 4 (by decide)),
      (field_flags (stretch hat 9 1 (by decide)) (Nat.le_of_ble_eq_true rfl)).trans ?_⟩
    simp only [flagsNat]
    omega
  · rw [hb, field_byte1 (n := flagsNat s.walker.waiting.toList) rfl]
    exact flagsNat_testBit s.walker.waiting k

theorem statusFreqs_fields {s : State} {b : List Byte} (h : (b.drop 19).take 108 = s.freqs.toList.flatMap freqBody) :
    ∀ f : Fin 4, field b (19 + 27 * f.val) 2 = (s.freqs.get f).threshold % 65536 ∧
        field b (21 + 27 * f.val) 1 = ((s.freqs.get f).curve.getD []).length % 256 ∧
        ∀ (i : Nat) (x : CurvePoint), i < 8 → ((s.freqs.get f).curve.getD [])[i]? = some x →
          field b (22 + 27 * f.val + 3 * i) 2 = x.phase % 65536 ∧
          field b (24 + 27 * f.val + 3 * i) 1 = x.depth % 256 := by
  intro f
  have hat : (b.drop (19 + 27 * f.val)).take 27 = freqBody (s.freqs.get f) :=
    (stretch h (27 * f.val) 27 (by omega)).trans (flatMap_record freqBody_length (Four.toList_get s.freqs f))
  refine ⟨field_byte2 (stretch hat 0 2 (by decide)), ?_, fun i x hi hx => ?_⟩
  · rw [show 21 + 27 * f.val = 19 + 27 * f.val + 2 by omega]
    exact field_byte1 (stretch hat 2 1 (by decide))
  · obtain ⟨hphase, hdepth⟩ := curve_point hi hx
    rw [show 22 + 27 * f.val + 3 * i = 19 + 27 * f.val + (3 + 3 * i) by omega,
      show 24 + 27 * f.val + 3 * i = 19 + 27 * f.val + (5 + 3 * i) by omega, field_within hat (by omega),
      field_within hat (by omega)]
    exact ⟨hphase, hdepth⟩

theorem statusPool_fields {s : State} {b : List Byte} (h : (b.drop 127).take 5 = statusPool s) :
    field b 127 2 = s.store.free.count % 65536 ∧ field b 129 2 = s.store.inUse.length % 65536 ∧
      field b 131 1 = (!s.store.warnArmed).toNat :=
  ⟨field_byte2 (stretch h 0 2 (by decide)), field_byte2 (stretch h 2 2 (by decide)),
    field_flag1 (stretch h 4 1 (by decide))⟩

theorem statusSeats_fields {s : State} {b : List Byte}
    (h : (b.drop 132).take 24 = s.seats.toList.flatMap (seatBody s.clock)) :
    ∀ k : Fin 4, ((s.seats.get k).held = none → field b (132 + 6 * k.val) 6 = 0) ∧
        ∀ (r : EntryRef) (due : Nat), (s.seats.get k).held = some r → (s.seats.get k).expiry = some due →
          field b (132 + 6 * k.val) 1 = 1 ∧ field b (133 + 6 * k.val) 2 = r.number % 65536 ∧
          field b (135 + 6 * k.val) 1 = r.issue % 256 ∧
          field b (136 + 6 * k.val) 2 = (due - s.clock + 999) / 1000 % 65536 := by
  intro k
  have hat : (b.drop (132 + 6 * k.val)).take 6 = seatBody s.clock (s.seats.get k) :=
    (stretch h (6 * k.val) 6 (by omega)).trans
      (flatMap_record (seatBody_length s.clock) (Four.toList_get s.seats k))
  unfold seatBody at hat
  refine ⟨fun hnone => ?_, fun r due hr hd => ?_⟩
  · rw [hnone] at hat
    exact congrArg bytesNat hat
  · rw [hr, hd] at hat
    rw [show 133 + 6 * k.val = 132 + 6 * k.val + 1 by omega, show 135 + 6 * k.val = 132 + 6 * k.val + 3 by omega,
      show 136 + 6 * k.val = 132 + 6 * k.val + 4 by omega]
    exact ⟨field_code (n := 1) (stretch hat 0 1 (by decide)) (by decide), field_byte2 (stretch hat 1 2 (by decide)),
      field_byte1 (stretch hat 3 1 (by decide)), field_byte2 (stretch hat 4 2 (by decide))⟩

theorem statusNotices_fields {s : State} {b : List Byte} (h : (b.drop 156).take 14 = statusNotices s) :
    field b 156 1 = s.notices.pending.length % 256 ∧
      field b 157 1 = s.notices.overflow.toNat + 2 * s.attn.toNat ∧ field b 158 1 = s.notices.floor % 256 ∧
      ∀ c : NoticeClass, field b (159 + c.number) 1 = s.notices.levels.get c % 256 := by
  simp only [statusNotices, Levels.toList, byte1, List.flatMap_cons, List.flatMap_nil, List.cons_append,
    List.nil_append] at h
  refine ⟨field_byte1 (stretch h 0 1 (by decide)),
    (field_flags (stretch h 1 1 (by decide)) (Nat.le_of_ble_eq_true rfl)).trans ?_,
    field_byte1 (stretch h 2 1 (by decide)), fun c => ?_⟩
  · simp only [flagsNat]
    omega
  · rw [show 159 + c.number = 156 + (3 + c.number) by omega]
    cases c <;> exact field_byte1 (stretch h _ 1 (by decide))

/-- The status record (11.4). -/
theorem statusBody_fields {s : State} {b : List Byte} (hb : b = statusBody s s.seekPos) :
    b.length = 170 ∧ field b 0 1 = s.map.phase.code ∧
      field b 1 2 = s.map.campaign % 65536 ∧ (s.walker.seek = none → field b 3 1 = 255 ∧ field b 4 9 = 0) ∧
      (∀ k, s.walker.seek = some k → field b 3 1 = k.chan.val ∧ field b 4 2 = k.index % 65536 ∧
        field b 6 1 = (s.seekPos k).row % 256 ∧ field b 7 1 = (s.seekPos k).col % 256 ∧
        field b 8 4 = k.examined % 4294967296 ∧ field b 12 1 = k.renew.toNat + 2 * k.request.isSome.toNat) ∧
      (∀ k : Fin 8, (field b 13 1).testBit k.val = s.walker.waiting.get k) ∧
      field b 14 1 = s.walker.clearance % 256 ∧ field b 15 1 = s.engine.val ∧
      field b 16 1 = s.hand.isSome.toNat ∧ field b 17 1 = s.interlock.low.toNat ∧
      field b 18 1 = s.interlock.latch.toNat ∧
      (∀ f : Fin 4, field b (19 + 27 * f.val) 2 = (s.freqs.get f).threshold % 65536 ∧
        field b (21 + 27 * f.val) 1 = ((s.freqs.get f).curve.getD []).length % 256 ∧
        ∀ (i : Nat) (x : CurvePoint), i < 8 → ((s.freqs.get f).curve.getD [])[i]? = some x →
          field b (22 + 27 * f.val + 3 * i) 2 = x.phase % 65536 ∧
          field b (24 + 27 * f.val + 3 * i) 1 = x.depth % 256) ∧
      field b 127 2 = s.store.free.count % 65536 ∧ field b 129 2 = s.store.inUse.length % 65536 ∧
      field b 131 1 = (!s.store.warnArmed).toNat ∧
      (∀ k : Fin 4, ((s.seats.get k).held = none → field b (132 + 6 * k.val) 6 = 0) ∧
        ∀ (r : EntryRef) (due : Nat), (s.seats.get k).held = some r → (s.seats.get k).expiry = some due →
          field b (132 + 6 * k.val) 1 = 1 ∧ field b (133 + 6 * k.val) 2 = r.number % 65536 ∧
          field b (135 + 6 * k.val) 1 = r.issue % 256 ∧
          field b (136 + 6 * k.val) 2 = (due - s.clock + 999) / 1000 % 65536) ∧
      field b 156 1 = s.notices.pending.length % 256 ∧
      field b 157 1 = s.notices.overflow.toNat + 2 * s.attn.toNat ∧ field b 158 1 = s.notices.floor % 256 ∧
      ∀ c : NoticeClass, field b (159 + c.number) 1 = s.notices.levels.get c % 256 := by
  rw [statusBody_split] at hb
  have hfreqs : (b.drop 19).take 108 = s.freqs.toList.flatMap freqBody := by
    rw [hb]
    exact drop_take_part (statusHead_length s) (statusFreqs_length s.freqs)
  have hpool : (b.drop 127).take 5 = statusPool s := by
    rw [hb, ← List.append_assoc]
    refine drop_take_part ?_ rfl
    rw [List.length_append, statusHead_length, statusFreqs_length]
  have hseats : (b.drop 132).take 24 = s.seats.toList.flatMap (seatBody s.clock) := by
    rw [hb, ← List.append_assoc, ← List.append_assoc]
    refine drop_take_part ?_ (statusSeats_length s.clock s.seats)
    rw [List.length_append, List.length_append, statusHead_length, statusFreqs_length]
    rfl
  have hnotices : (b.drop 156).take 14 = statusNotices s := by
    rw [hb, ← List.append_assoc, ← List.append_assoc, ← List.append_assoc, ← List.append_nil (statusNotices s)]
    refine drop_take_part ?_ rfl
    rw [List.length_append, List.length_append, List.length_append, statusHead_length, statusFreqs_length,
      statusSeats_length]
    rfl
  have hlen : b.length = 170 := by
    rw [hb, List.length_append, List.length_append, List.length_append, List.length_append, statusHead_length,
      statusFreqs_length, statusSeats_length]
    rfl
  have hfields := And.intro (statusHead_fields hb) (And.intro (statusFreqs_fields hfreqs)
    (And.intro (statusPool_fields hpool) (And.intro (statusSeats_fields hseats) (statusNotices_fields hnotices))))
  simp only [and_assoc] at hfields
  exact ⟨hlen, hfields⟩

/-- Settles O41: each query's answer, and the fields of its record at their bytes. -/
theorem queriesAnswer : Obligations.QueriesAnswer := by
  unfold Obligations.QueriesAnswer
  refine fun rq s => ⟨fun name h hn => ?readTube, fun status body hh hm hw => ?complete, fun x cell hh hm hw hc => ?visit,
    fun ref h hn => ?readEntry, fun h => ?readCensus, fun n h => ?readChannel, fun n h => ?readLink, fun h => ?readStatus,
    fun i t b hb => ?tube, fun r e b hb => ?entry, fun i t b hb hl => ?tubeAndEntries, fun r e t ht => ?entryAndTube,
    fun c p b hb => ?channel, fun l b hb => ?link, fun m b hb => ?census, fun b hb => ?status⟩
  case readTube =>
    rw [exec_readTube h hn]
    unfold State.readTube
    exact ⟨fun hf => by rw [hf]; rfl, fun i t hf => by rw [hf]; rfl⟩
  case complete => exact exec_commandComplete hh hm hw
  case visit =>
    rw [exec_findTubeVisit hh hm hw hc]
    exact ⟨fun i t hi ht hx => by rw [State.foundAt_match hi ht hx]; rfl,
      fun hno => by rw [State.foundAt_none hno]; rfl⟩
  case readEntry =>
    rw [exec_readEntry h hn]
    unfold State.readEntry
    exact ⟨fun hr => by rw [hr], fun e he => by rw [he]⟩
  case readCensus => exact (exec_accepted (i := .readCensus rq) h rfl rfl).trans rfl
  case readChannel => exact (exec_at (i := .readChannel rq n.val) State.readChannel h rfl (numberInRange_val n)).trans rfl
  case readLink => exact (exec_at (i := .readLink rq n.val) State.readLink h rfl (numberInRange_val n)).trans rfl
  case readStatus => exact (exec_accepted (i := .readStatus rq) h rfl rfl).trans rfl
  case tube => exact tubeBody_fields hb
  case entry => exact entryBody_fields hb
  case tubeAndEntries => exact readTubeBody_fields hb hl
  case entryAndTube =>
    unfold readEntryBody
    rw [ht]
    rfl
  case channel => exact channelBody_fields hb
  case link =>
    simp only [linkBody, flag1, byte1, List.cons_append, List.nil_append] at hb
    subst hb
    refine ⟨rfl, field_code rfl l.rx.code_lt, fun k => ?_, field_byte1 rfl, field_byte1 rfl, fun hk => ?_, fun k hk => ?_,
      field_byte1 rfl, field_code rfl l.policy.code_lt, field_flag1 rfl, fun k => ?_⟩
    · rw [field_byte1 (n := flagsNat l.flags.toList) rfl]
      exact linkFlags_testBit l.flags k
    · rw [hk]
      rfl
    · rw [hk]
      exact field_code rfl k.code_lt
    · rw [field_byte1 (n := flagsNat l.enables.toList) rfl]
      exact linkFlags_testBit l.enables k
  case census =>
    simp only [censusBody, Census.toList, byte1, byte2, List.flatMap_cons, List.flatMap_nil, List.cons_append,
      List.nil_append] at hb
    subst hb
    refine ⟨rfl, fun x => ?_, field_byte2 rfl, field_byte2 rfl, field_code rfl m.phase.code_lt, field_byte2 rfl⟩
    cases x <;> exact field_byte2 rfl
  case status => exact statusBody_fields hb

end Sys2Proof.Machine
end

section
/-! Probe links: sync word, header and frames (O44, O45). -/

namespace Sys2Proof.Machine

/-! ## An error event (R93, R94) -/

theorem LinkFlags.get_raise (f : LinkFlags) (d e : LinkError) :
    (f.raise e).get d = true ↔ d = e ∨ f.get d = true := by
  cases d <;> cases e <;> simp [LinkFlags.raise, LinkFlags.get]

theorem State.linkError_eq (s : State) (n : Fin 8) (e : LinkError) : s.linkError n e =
    { s with
      links := s.links.set n ((s.link n).fail e)
      notices := if (s.link n).enables.get e then s.notices.post .link n.val else s.notices } := by
  unfold State.linkError
  dsimp only
  split <;> rfl

theorem State.setLinkRx_link (s : State) (n m : Fin 8) (l : Link) :
    (s.setLinkRx n l).link m = if n = m then l else s.link m :=
  Eight.get_set s.links n m l

theorem State.linkError_link (s : State) (n m : Fin 8) (e : LinkError) :
    (s.linkError n e).link m = if n = m then (s.link n).fail e else s.link m := by
  rw [State.linkError_eq]
  exact Eight.get_set s.links n m _

/-! ## The distance from the sync word (R86) -/

theorem syncDistance_zero (w : BitVec 16) : syncDistance w = 0 ↔ w = 0xB38E#16 := by
  refine ⟨fun h => ?_, fun h => by subst h; rfl⟩
  have hbits : w ^^^ 0xB38E#16 = 0#16 := by
    refine BitVec.eq_of_getLsbD_eq fun i hi => ?_
    have hfilter := List.filter_eq_nil_iff.mp (List.length_eq_zero_iff.mp h) i (by simp; omega)
    rw [Bool.eq_false_iff.mpr hfilter, BitVec.getLsbD_zero]
  exact BitVec.xor_eq_zero_iff.mp hbits

theorem syncDistance_one (w : BitVec 16) :
    syncDistance w = 1 ↔ ∃ i, i < 16 ∧ w = 0xB38E#16 ^^^ BitVec.twoPow 16 i := by
  constructor
  · intro h
    obtain ⟨i, hi⟩ := List.length_eq_one_iff.mp h
    have hmem : ∀ j, j < 16 → ((w ^^^ 0xB38E#16).getLsbD j = true ↔ j = i) := by
      intro j hj
      have hfilter := List.mem_filter (x := j) (p := fun i => (w ^^^ 0xB38E#16).getLsbD i) (as := List.range' 0 16)
      rw [hi, List.mem_singleton] at hfilter
      rw [hfilter]
      exact ⟨fun hb => ⟨by simp; omega, hb⟩, And.right⟩
    have hlt : i < 16 := by
      have : i ∈ (List.range' 0 16).filter (fun i => (w ^^^ 0xB38E#16).getLsbD i) := hi ▸ List.mem_singleton_self i
      have := (List.mem_filter.mp this).1
      simp at this
      omega
    have hbits : w ^^^ 0xB38E#16 = BitVec.twoPow 16 i := by
      refine BitVec.eq_of_getLsbD_eq fun j hj => ?_
      rw [BitVec.getLsbD_twoPow, Bool.eq_iff_iff, hmem j hj]
      simp [hlt, eq_comm]
    exact ⟨i, hlt, by rw [← hbits, BitVec.xor_comm w, ← BitVec.xor_assoc, BitVec.xor_self, BitVec.zero_xor]⟩
  · rintro ⟨i, hi, rfl⟩
    interval_cases i <;> decide

/-! ## SYNC_WORD_FOUND and HEADER_CHECK (R86, R87) -/

theorem exec_syncWordFound {s : State} (h : s.held = false) (n : Fin 8) (w : BitVec 16) :
    exec (.syncWordFound n w) s = .next (s.syncWord n w) :=
  congrArg Host.Outcome.next (State.whenRunning_running h _)

theorem State.syncWord_eq (s : State) (n : Fin 8) (w : BitVec 16) : s.syncWord n w =
    if (s.link n).rx ≠ .hunt then s
    else if syncDistance w = 0 then s.setLinkRx n (s.link n).beginFrame
    else if syncDistance w = 1 then (s.setLinkRx n (s.link n).beginFrame).linkError n .syncCorrected
    else s := by
  unfold State.syncWord
  split
  · rfl
  · split
    · next h => rw [if_pos h]
    · next h => rw [h]; rfl
    · next h0 h1 => rw [if_neg h0, if_neg h1]

theorem exec_headerCheck {s : State} (h : s.held = false) (n : Fin 8) (l : List Byte) :
    exec (.headerCheck n l) s = .next (s.headerBytes n l) :=
  congrArg Host.Outcome.next (State.whenRunning_running h _)

theorem State.headerBytes_four {s : State} {n : Fin 8} (hrx : (s.link n).rx = .header)
    (hg : (s.link n).gathered = []) (source kind length crc : Byte) :
    s.headerBytes n [source, kind, length, crc] = s.checkHeader n source kind length crc := by
  unfold State.headerBytes
  dsimp only
  rw [hrx, hg, if_neg (by decide)]
  rfl

theorem Policy.afterDamage_eq (p : Policy) : p.afterDamage = if p = .auto then .hunt else .fault := by
  cases p <;> rfl

/-- Settles O44: the error event, the sixteen bits by their distance from the sync word, and the header by its CRC. -/
theorem syncAndHeader : Obligations.SyncAndHeader := by
  unfold Obligations.SyncAndHeader
  refine fun s n => ⟨fun e => ?error, fun w h => ?sync, fun source kind length crc h => ?header⟩
  case error =>
    refine ⟨?_, fun d => ?_, fun m hm => ?_, ?_, ?_⟩
    · rw [State.linkError_link, if_pos rfl]
      rfl
    · rw [State.linkError_link, if_pos rfl]
      exact LinkFlags.get_raise _ d e
    · rw [State.linkError_link, if_neg hm.symm]
    · rw [State.linkError_eq]
    · rw [State.linkError_eq]
  case sync =>
    rw [exec_syncWordFound h, State.syncWord_eq]
    refine ⟨fun hx hw => ?_, fun hx hw => ?_, fun hno => ?_⟩
    · rw [if_neg (not_not.mpr hx), if_pos ((syncDistance_zero w).mpr hw)]
      rfl
    · have hone := (syncDistance_one w).mpr hw
      rw [if_neg (not_not.mpr hx), if_neg (by rw [hone]; decide), if_pos hone]
      rfl
    · by_cases hx : (s.link n).rx = .hunt
      · obtain ⟨hzero, hone⟩ := hno.resolve_left (not_not.mpr hx)
        rw [if_neg (not_not.mpr hx), if_neg (mt (syncDistance_zero w).mp hzero),
          if_neg (mt (syncDistance_one w).mp fun ⟨i, hi, hw⟩ => hone i hi hw)]
      · rw [if_pos hx]
  case header =>
    rw [exec_headerCheck h]
    refine ⟨fun hx => ?_, fun hx hg => ?_⟩
    · unfold State.headerBytes
      dsimp only
      rw [if_pos hx]
    · rw [State.headerBytes_four hx hg]
      unfold State.checkHeader
      dsimp only
      exact ⟨fun hc => by rw [if_pos hc.symm], fun hc => by rw [if_neg fun h => hc h.symm, Policy.afterDamage_eq]⟩

/-! ## FRAME_COMPLETE (R88 to R91) -/

theorem reportKindOf_eq (n : Nat) : reportKindOf n =
    if n = 1 then some .enter else if n = 2 then some .progress else if n = 3 then some .indication
    else if n = 4 then some .farEnd else if n = 5 then some .exit else if n = 6 then some .obstructed
    else if n = 7 then some .heartbeat else none := by
  match n with
  | 0 | 1 | 2 | 3 | 4 | 5 | 6 | 7 => rfl
  | n + 8 => simp [reportKindOf]

theorem exec_frameComplete {s : State} {n : Fin 8} {h : FrameHeader} {payload : List Byte} {c1 c2 : Byte}
    (hh : s.held = false) (hrx : (s.link n).rx = .payload) (hhead : (s.link n).header = some h)
    (hg : (s.link n).gathered = []) (hlen : payload.length = h.length) :
    exec (.frameComplete n (payload ++ [c1, c2])) s =
      .next ((s.setLinkRx n { s.link n with rx := .hunt, header := none, gathered := [] }).judgeFrame n h payload
        (bytesNat [c1, c2])) := by
  have hbytes : s.frameBytes n (payload ++ [c1, c2]) =
      (s.setLinkRx n { s.link n with rx := .hunt, header := none, gathered := [] }).judgeFrame n h payload
        (bytesNat [c1, c2]) := by
    unfold State.frameBytes
    dsimp only
    rw [hrx, hhead, hg]
    dsimp only
    rw [List.nil_append, List.length_append, hlen, List.length_cons, List.length_cons, List.length_nil, if_neg (by omega),
      if_pos rfl, ← hlen, List.take_left, List.drop_left]
  exact congrArg Host.Outcome.next ((State.whenRunning_running hh _).trans hbytes)

/-- A valid frame with room in its queue (R90). -/
theorem State.acceptFrame_room {s : State} {n : Fin 8} {source : Nat} {kind : ReportKind} {payload : List Byte}
    (h : (s.link n).queue.length < 16) : s.acceptFrame n source kind payload = s.setLinkRx n
      { s.link n with
        lastKind := some kind, lastSource := some source
        queue := (s.link n).queue ++ [{ kind, payload, chan := n }] } := by
  unfold State.acceptFrame
  exact if_pos h

/-- A valid frame lost to a full queue (R91). -/
theorem State.acceptFrame_full {s : State} {n : Fin 8} {source : Nat} {kind : ReportKind} {payload : List Byte}
    (h : 16 ≤ (s.link n).queue.length) : s.acceptFrame n source kind payload =
      { (s.setLinkRx n { s.link n with lastKind := some kind, lastSource := some source }).linkError n .queueOverrun with
        chans := s.chans.set n { s.chan n with gapMarks := (s.chan n).gapMarks + 1 } } := by
  unfold State.acceptFrame
  refine (if_neg (Nat.not_lt.mpr h)).trans ?_
  rw [State.linkError_eq]
  rfl

/-- The judgement of a frame whose payload CRC, kind and length are right (R89). -/
theorem State.checkSource_eq {s : State} {n : Fin 8} {source : Nat} {kind : ReportKind} {payload : List Byte} :
    (source ≠ n.val → (s.link n).strict = true → s.checkSource n source kind payload = s.linkError n .source) ∧
    (source = n.val ∨ (s.link n).strict = false → s.checkSource n source kind payload =
      (if source = n.val then s else s.linkError n .source).acceptFrame n source kind payload) := by
  unfold State.checkSource
  dsimp only
  refine ⟨fun hs ht => by rw [if_neg hs, if_pos ht], fun h => ?_⟩
  by_cases hs : source = n.val
  · rw [if_pos hs, if_pos hs]
  · rw [if_neg hs, if_neg hs, if_neg (by rw [h.resolve_left hs]; decide)]

/-- Settles O45: the checks of a complete frame in order, and what a valid one leaves. -/
theorem frameJudged : Obligations.FrameJudged := by
  unfold Obligations.FrameJudged
  refine ⟨reportKindOf_eq, fun k => by cases k <;> rfl, ?_⟩
  intro s s0 n h payload c1 c2 hh hrx hhead hg hlen hs0
  rw [exec_frameComplete hh hrx hhead hg hlen, ← hs0]
  have hlink : s0.link n = { s.link n with rx := .hunt, header := none, gathered := [] } := by
    rw [hs0, State.setLinkRx_link, if_pos rfl]
  unfold State.judgeFrame
  refine ⟨fun hcrc => by rw [if_pos fun hx => hcrc hx.symm], fun hcrc => ?_⟩
  rw [if_neg (not_not.mpr hcrc.symm)]
  refine ⟨fun hk => by rw [hk], fun kind hk => ?_⟩
  rw [hk]
  dsimp only
  refine ⟨fun hl => by rw [if_pos hl], fun hl hsource hstrict => ?_, fun s1 hl hsource hs1 => ?_⟩
  · rw [if_neg (not_not.mpr hl), State.checkSource_eq.1 hsource (by rw [hlink]; exact hstrict)]
  · rw [if_neg (not_not.mpr hl), State.checkSource_eq.2 (by rw [hlink]; exact hsource), ← hs1]
    have hqueue : (s1.link n).queue = (s.link n).queue := by
      rw [hs1]
      split
      · rw [hlink]
      · rw [State.linkError_link, if_pos rfl, hlink]
        rfl
    have hchans : s1.chans = s.chans := by
      rw [hs1, hs0]
      split
      · rfl
      · rw [State.linkError_eq]
        rfl
    refine ⟨fun hroom => ?_, fun hfull => ?_⟩
    · rw [State.acceptFrame_room (by rw [hqueue]; exact hroom), hqueue]
    · rw [State.acceptFrame_full (by rw [hqueue]; exact hfull)]
      have hchan : ∀ m, s1.chan m = s.chan m := fun m => congrArg (Eight.get · m) hchans
      refine ⟨_, rfl, ?_, fun m hm => ?_, rfl⟩
      · exact (Eight.get_set s1.chans n n _).trans (by rw [if_pos rfl, hchan])
      · exact (Eight.get_set s1.chans n m _).trans (by rw [if_neg hm.symm]; exact hchan m)

end Sys2Proof.Machine
end

section
/-! The transmitter, the marks on their way (O46), and the stall timer (O50). -/

namespace Sys2Proof.Machine

/-! ## The transmitter (R99, R195) -/

theorem Transmitter.enqueue_idle {t : Transmitter} {m : Message} (h : t.sending = none) :
    t.enqueue m = { t with sending := some m } := by
  unfold Transmitter.enqueue
  rw [h]

theorem Transmitter.enqueue_busy {t : Transmitter} {m : Message} (h : t.sending ≠ none) :
    t.enqueue m = if t.waiting.length < 8 then { t with waiting := t.waiting ++ [m] }
      else { t with waiting := t.waiting.drop 1 ++ [m] } := by
  obtain ⟨x, hx⟩ := Option.ne_none_iff_exists'.mp h
  unfold Transmitter.enqueue
  rw [hx]
  rfl

theorem Transmitter.sent_idle {t : Transmitter} (h : t.sending = none) : t.sent = t := by
  unfold Transmitter.sent
  rw [h]

theorem Transmitter.sent_last {t : Transmitter} (h : t.sending ≠ none) (hw : t.waiting = []) :
    t.sent = { sending := none, waiting := [] } := by
  obtain ⟨x, hx⟩ := Option.ne_none_iff_exists'.mp h
  unfold Transmitter.sent
  rw [hx, hw]

theorem Transmitter.sent_next {t : Transmitter} {m : Message} {rest : List Message} (h : t.sending ≠ none)
    (hw : t.waiting = m :: rest) : t.sent = { sending := some m, waiting := rest } := by
  obtain ⟨x, hx⟩ := Option.ne_none_iff_exists'.mp h
  unfold Transmitter.sent
  rw [hx, hw]

theorem crc8Byte_eq (v : Nat) (b : Byte) : crc8Byte v b = crc8Bit^[8] (v ^^^ b.toNat) := by
  simp only [Function.iterate_succ, Function.iterate_zero, Function.comp_apply, id_eq]
  rfl

theorem crc8_append (l : List Byte) (b : Byte) : crc8 (l ++ [b]) = crc8Bit^[8] (crc8 l ^^^ b.toNat) := by
  rw [crc8, List.foldl_append, ← crc8, List.foldl_cons, List.foldl_nil, crc8Byte_eq]

theorem exec_messageSent {s : State} (h : s.held = false) (n : Fin 8) :
    exec (.messageSent n) s = .next { s with txs := s.txs.set n (s.txs.get n).sent } :=
  congrArg Host.Outcome.next (State.whenRunning_running h _)

theorem exec_dataGapMark {s : State} (h : s.held = false) (n : Fin 8) :
    exec (.dataGapMark n) s = .next (s.dataGapMark n) :=
  congrArg Host.Outcome.next (State.whenRunning_running h _)

theorem exec_overtravelMark {s : State} (h : s.held = false) (n : Fin 8) :
    exec (.overtravelMark n) s = .next (s.overtravelMark n) :=
  congrArg Host.Outcome.next (State.whenRunning_running h _)

theorem Eight.set_get {α : Type} (v : Eight α) (n : Fin 8) : v.set n (v.get n) = v :=
  Eight.ext_get fun m => by rw [Eight.get_set]; split <;> simp_all

/-- Settles O46: the queue of a transmitter, its frame, and the marks. -/
theorem messagesAndMarks : Obligations.MessagesAndMarks := by
  unfold Obligations.MessagesAndMarks
  refine ⟨fun t m => ⟨Transmitter.enqueue_idle, fun hs hw => ?_, fun old rest hs hw hr => ?_⟩, fun m n => ?frame,
    ⟨rfl, crc8_append, fun v _ => rfl⟩, fun s n h => ?rows⟩
  · rw [Transmitter.enqueue_busy hs, if_pos hw]
  · rw [Transmitter.enqueue_busy hs, hw, List.length_cons, hr, if_neg (by decide)]
    rfl
  case frame =>
    refine ⟨rfl, rfl, fun h => by rw [h]; rfl, fun h => by rw [h]; rfl, fun h => by rw [h]; rfl,
      fun h => by rw [h]; rfl, rfl, rfl, ?_⟩
    exact bytesNat_byte2 (crc16_lt m.echo.bytes)
  case rows =>
    rw [exec_messageSent h, exec_dataGapMark h, exec_overtravelMark h]
    unfold State.dataGapMark State.overtravelMark
    dsimp only
    refine ⟨fun hs => ?_, fun hs hw => by rw [Transmitter.sent_last hs hw],
      fun m rest hs hw => by rw [Transmitter.sent_next hs hw], fun hg => by rw [if_pos hg],
      fun hg => by rw [if_neg (Nat.ne_of_gt hg)]; rfl, fun ho => by rw [if_pos ho],
      fun ho => by rw [if_neg (Nat.ne_of_gt ho)]; rfl⟩
    rw [Transmitter.sent_idle hs, Eight.set_get]

/-! ## The stall timer (R112, R113, R115) -/

theorem exec_stallTimerTick {s : State} (h : s.held = false) (n : Fin 8) :
    exec (.stallTimerTick n) s = .next (s.stallTick n) :=
  congrArg Host.Outcome.next (State.whenRunning_running h _)

theorem exec_stallExpiry {s : State} (h : s.held = false) (n : Fin 8) :
    exec (.stallExpiry n) s = .next (s.stallExpiry n) :=
  congrArg Host.Outcome.next (State.whenRunning_running h _)

/-- The expiry of a channel that holds a claim (R115). -/
theorem State.expire_eq {s : State} {n : Fin 8} {k : Claim} (hs : (s.chan n).state = .assigned ∨ (s.chan n).state = .probing)
    (hk : (s.chan n).claim = some k) : s.expire n = { s with
      clock := max s.clock (s.chan n).timer.nextTick
      chans := s.chans.set n (s.chan n).stall
      txs := s.txs.set n ((s.txs.get n).enqueue { kind := .hold, echo := k.echo })
      notices := s.notices.post .stall n.val } := by
  have hexpire : s.expire n = (((s.atTick n).setChan n (s.chan n).stall).sendClaim n .hold).post .stall n.val := by
    unfold State.expire
    dsimp only
    rcases hs with hs | hs <;> rw [hs]
  have hclaim : (((s.atTick n).setChan n (s.chan n).stall).chan n).claim = some k :=
    (congrArg Channel.claim (Eight.get_set s.chans n n _)).trans (by rw [if_pos rfl]; exact hk)
  rw [hexpire, State.sendClaim_some hclaim]
  rfl

/-- Settles O50: the load, the tick that leaves the count above 0, and the expiry. -/
theorem stallTimerExpires : Obligations.StallTimerExpires := by
  unfold Obligations.StallTimerExpires
  refine ⟨fun t cfg now => ⟨fun h => StallTimer.load_stopped h, fun h => StallTimer.load_runs h⟩, ?_⟩
  intro s n c h hc
  subst hc
  rw [exec_stallTimerTick h, exec_stallExpiry h]
  unfold State.stallTick State.stallExpiry
  dsimp only
  refine ⟨fun hm => ?_, fun hm hcount => ?_, fun k hm hcount hs hk => ?_⟩
  · rw [if_pos hm, if_neg fun hx => hm hx.1]
    exact ⟨rfl, rfl⟩
  · rw [if_neg (not_not.mpr hm), if_neg (Nat.not_le.mpr hcount), if_neg fun hx => Nat.not_le.mpr hcount hx.2]
    exact ⟨rfl, rfl⟩
  · rw [if_neg (not_not.mpr hm), if_pos (Nat.le_of_eq hcount), if_pos ⟨hm, Nat.le_of_eq hcount⟩, State.expire_eq hs hk]
    exact ⟨_, rfl, rfl, rfl⟩

end Sys2Proof.Machine
end

section
/-! The report engine (O47) and the events of a pass (O48). -/

namespace Sys2Proof.Machine

/-! ## The engine's choice (R100) -/

theorem eightOf_eq_iff (k : Nat) (n : Fin 8) : eightOf k = n ↔ n.val = k % 8 := by
  rw [Fin.ext_iff, eq_comm]
  rfl

theorem State.engineChoice_iff (s : State) (n : Fin 8) : s.engineChoice = some n ↔
    ∃ d, 1 ≤ d ∧ d ≤ 8 ∧ n.val = (s.engine.val + d) % 8 ∧ (s.link n).queue ≠ [] ∧
      ∀ m : Fin 8, ∀ e, 1 ≤ e → e < d → m.val = (s.engine.val + e) % 8 → (s.link m).queue = [] := by
  unfold State.engineChoice engineOrder
  rw [List.find?_map, Option.map_eq_some_iff]
  simp only [List.find?_range'_eq_some, Function.comp_apply, Bool.not_eq_true', Bool.not_eq_false', List.isEmpty_iff,
    List.isEmpty_eq_false_iff, List.mem_range'_1]
  constructor
  · rintro ⟨d, ⟨hq, ⟨h1, h8⟩, hbefore⟩, hd⟩
    subst hd
    refine ⟨d, h1, by omega, (eightOf_eq_iff _ _).mp rfl, hq, fun m e he1 he2 hm => ?_⟩
    have hno := hbefore e he1 he2
    rw [(eightOf_eq_iff _ m).mpr hm] at hno
    exact hno
  · rintro ⟨d, h1, h8, hn, hq, hbefore⟩
    have hd := (eightOf_eq_iff _ n).mpr hn
    exact ⟨d, ⟨by rw [hd]; exact hq, ⟨h1, by omega⟩, fun e he1 he2 =>
      hbefore _ e he1 he2 ((eightOf_eq_iff _ _).mp rfl)⟩, hd⟩

theorem State.engineChoice_none {s : State} (h : ∀ n : Fin 8, (s.link n).queue = []) : s.engineChoice = none := by
  cases hc : s.engineChoice with
  | none => rfl
  | some n =>
    obtain ⟨d, -, -, -, hq, -⟩ := (s.engineChoice_iff n).mp hc
    exact absurd (h n) hq

theorem exec_reportTake {s : State} (h : s.held = false) (x : TakeExtent) :
    exec (.reportTake x) s = .next (s.reportTake x) :=
  congrArg Host.Outcome.next (State.whenRunning_running h _)

theorem State.reportTake_idle {s : State} (h : s.hand = none) (hc : s.engineChoice = none) (x : TakeExtent) :
    s.reportTake x = s := by
  unfold State.reportTake
  rw [h]
  dsimp only
  rw [hc]

theorem State.reportTake_moment {s : State} {n : Fin 8} {r : Report} {rest : List Report} (h : s.hand = none)
    (hc : s.engineChoice = some n) (hq : (s.link n).queue = r :: rest) : s.reportTake .moment =
      { s with
        links := s.links.set n { s.link n with queue := rest }, engine := n, hand := some (.taken n r) } := by
  unfold State.reportTake
  rw [h]
  dsimp only
  rw [hc]
  dsimp only
  rw [hq]
  rfl

/-! ## What a channel accepts (R102, R103) -/

theorem Channel.working_plain {c : Channel} (h1 : c.state ≠ .stalled) (h2 : c.state ≠ .halted) : c.working = c.state := by
  unfold Channel.working
  split
  · next h _ => exact absurd h h1
  · next h _ => exact absurd h h2
  · next h _ => exact absurd h h2
  · rfl

theorem Channel.working_stalled {c : Channel} {p : ChanState} (h : c.state = .stalled) (hp : c.prior = some p) :
    c.working = p := by
  unfold Channel.working
  rw [h, hp]

theorem Channel.working_halted {c : Channel} {p : ChanState} (h : c.state = .halted) (hp : c.prior = some p)
    (hn : p ≠ .stalled) : c.working = p := by
  unfold Channel.working
  rw [h, hp]
  cases p
  case stalled => exact absurd rfl hn
  all_goals rfl

theorem Channel.working_interrupted {c : Channel} {p : ChanState} (h : c.state = .halted) (hp : c.prior = some .stalled)
    (hi : c.interrupted = some p) : c.working = p := by
  unfold Channel.working
  rw [h, hp, hi]
  rfl

theorem acceptsKind_heartbeat (w : ChanState) :
    acceptsKind w .heartbeat = true ↔ w = .idle ∨ w = .seeking ∨ w = .assigned ∨ w = .probing := by
  cases w <;> simp [acceptsKind]

theorem acceptsKind_event {k : ReportKind} (h : k ≠ .heartbeat) (w : ChanState) :
    acceptsKind w k = true ↔ (k = .enter → w = .assigned) ∧ (k ≠ .enter → w = .probing) := by
  cases k
  case heartbeat => exact absurd rfl h
  all_goals cases w <;> simp [acceptsKind]

theorem Report.echoMatches_iff (r : Report) (k : Claim) : r.echoMatches k = true ↔
    field r.payload 0 1 = k.pos.row ∧ field r.payload 1 1 = k.pos.col ∧ field r.payload 2 1 = k.face.code ∧
      field r.payload 3 1 = k.pass := by
  simp only [Report.echoMatches, Bool.and_eq_true, beq_iff_eq, and_assoc]

theorem Channel.accepts_heartbeat {c : Channel} {r : Report} (h : r.kind = .heartbeat) :
    c.accepts r = true ↔ c.working = .idle ∨ c.working = .seeking ∨ c.working = .assigned ∨ c.working = .probing := by
  unfold Channel.accepts
  rw [h, ← acceptsKind_heartbeat, decide_eq_true rfl, Bool.true_or, Bool.and_true]

theorem Channel.accepts_event {c : Channel} {r : Report} (h : r.kind ≠ .heartbeat) :
    c.accepts r = true ↔ (r.kind = .enter → c.working = .assigned) ∧ (r.kind ≠ .enter → c.working = .probing) ∧
      ∃ k : Claim, c.claim = some k ∧ r.echoMatches k = true := by
  unfold Channel.accepts
  rw [Bool.and_eq_true, acceptsKind_event h, decide_eq_false h, Bool.false_or, and_assoc]
  cases c.claim with
  | none => simp
  | some k => simp

/-! ## What a report does (R101, R104 to R108) -/

theorem State.handleReport_refused {s : State} {n : Fin 8} {r : Report} (h : (s.chan r.chan).accepts r = false)
    (x : TakeExtent) : s.handleReport n r x = s.linkError n .sequence := by
  unfold State.handleReport
  rw [h]
  rfl

theorem State.handleReport_accepted {s : State} {n : Fin 8} {r : Report} (h : (s.chan r.chan).accepts r = true)
    (x : TakeExtent) : s.handleReport n r x = s.takeAccepted r.chan r x := by
  unfold State.handleReport
  rw [h]
  rfl

/-- The stall timer of a channel after a report of this kind (R114). -/
def Channel.reloaded (c : Channel) (k : ReportKind) (now : Nat) : StallTimer :=
  if c.config.reloads.holds k = true ∧ c.timer.mode = .running then c.timer.load c.config now else c.timer

theorem State.reloadFor_eq (s : State) (n : Fin 8) (k : ReportKind) : s.reloadFor n k = { s with
    chans := s.chans.set n { s.chan n with timer := (s.chan n).reloaded k s.clock } } :=
  State.reloadTimer_eq s n _

theorem State.setChan_chan (s : State) (n m : Fin 8) (c : Channel) :
    (s.setChan n c).chan m = if n = m then c else s.chan m :=
  Eight.get_set s.chans n m c

theorem State.setChan_reloadFor (s : State) (n : Fin 8) (c : Channel) (k : ReportKind) :
    (s.setChan n c).reloadFor n k = { s with chans := s.chans.set n { c with timer := c.reloaded k s.clock } } := by
  rw [State.reloadFor_eq, State.setChan_chan, if_pos rfl]
  exact congrArg (fun v => { s with chans := v }) (Eight.set_set s.chans n c _)

/-- The report engine hands a report to the channel as it stands. -/
theorem State.handles_chan {s s0 : State} {x : TakeExtent} {n : Fin 8} {r : Report} (h : s.handles x n r s0) (m : Fin 8) :
    s0.chan m = s.chan m := by
  obtain ⟨-, -, -, -, -, -, hchans, -⟩ := State.handles_kept h
  exact congrArg (Eight.get · m) hchans

/-- An accepted report of a channel in its REPORT_TAKE (R101). -/
theorem State.handles_accepted {s s0 : State} {x : TakeExtent} {n : Fin 8} {r : Report} (hh : s.held = false)
    (h : s.handles x n r s0) (ha : (s.chan r.chan).accepts r = true) :
    exec (.reportTake x) s = .next (s0.takeAccepted r.chan r x) := by
  rw [State.handles_take hh h, State.handleReport_accepted (by rw [State.handles_chan h]; exact ha)]

theorem State.takeAccepted_heartbeat {s : State} {n : Fin 8} {r : Report} (h : r.kind = .heartbeat) (x : TakeExtent) :
    s.takeAccepted n r x = s.reloadFor n .heartbeat := by
  unfold State.takeAccepted
  rw [h]

/-- Settles O47: the engine's choice in ring order, the acceptance by working state and echo, and the refusal. -/
theorem reportsJudged : Obligations.ReportsJudged := by
  unfold Obligations.ReportsJudged
  refine ⟨State.engineChoice_iff, fun s hh hhand hq x => ?_, fun s n r rest hh hhand hc hq => ?_, fun c =>
    ⟨Channel.working_plain, fun p => Channel.working_stalled, fun p => Channel.working_halted,
      fun p => Channel.working_interrupted⟩, fun c r => ?_, fun s s0 x n r hh h ha => ?_,
    fun s s0 x n r c hh h hk hc ha => ?_⟩
  · rw [exec_reportTake hh, State.reportTake_idle hhand (State.engineChoice_none hq)]
  · rw [exec_reportTake hh, State.reportTake_moment hhand hc hq]
  · by_cases hk : r.kind = .heartbeat
    · rw [Channel.accepts_heartbeat hk]
      exact ⟨fun h => .inl ⟨hk, h⟩, fun h => h.elim And.right fun h => absurd hk h.1⟩
    · rw [Channel.accepts_event hk]
      simp only [Report.echoMatches_iff]
      exact ⟨fun h => .inr ⟨hk, h⟩, fun h => h.elim (fun h => absurd h.1 hk) And.right⟩
  · rw [State.handles_take hh h, State.handleReport_refused (by rw [State.handles_chan h]; exact ha)]
  · subst hc
    obtain ⟨hclock, -, -, -, -, -, hchans, -⟩ := State.handles_kept h
    rw [State.handles_accepted hh h ha, State.takeAccepted_heartbeat hk, State.reloadFor_eq, State.handles_chan h, hclock,
      hchans]
    rfl

/-! ## The events of a pass (R104 to R107) -/

theorem Channel.enterTube_kept (c : Channel) : c.enterTube =
    { c with state := c.enterTube.state, prior := c.enterTube.prior, interrupted := c.enterTube.interrupted } := by
  unfold Channel.enterTube
  split <;> rfl

end Sys2Proof.Machine
end

section
/-! The events of a pass (O48). -/

namespace Sys2Proof.Machine

theorem State.takeAccepted_enter {s : State} {n : Fin 8} {r : Report} {k : Claim} (h : r.kind = .enter)
    (hk : (s.chan n).claim = some k) (x : TakeExtent) : s.takeAccepted n r x = s.takeEnter n k := by
  unfold State.takeAccepted
  rw [h, hk]

theorem State.takeAccepted_progress {s : State} {n : Fin 8} {r : Report} {k : Claim} (h : r.kind = .progress)
    (hk : (s.chan n).claim = some k) (x : TakeExtent) : s.takeAccepted n r x = s.takeProgress n (field r.payload 4 3) := by
  unfold State.takeAccepted
  rw [h, hk]
  rfl

theorem State.takeAccepted_farEnd {s : State} {n : Fin 8} {r : Report} {k : Claim} (h : r.kind = .farEnd)
    (hk : (s.chan n).claim = some k) (x : TakeExtent) : s.takeAccepted n r x = s.takeFarEnd n k := by
  unfold State.takeAccepted
  rw [h, hk]

theorem State.takeAccepted_indication {s : State} {n : Fin 8} {r : Report} {k : Claim} (h : r.kind = .indication)
    (hk : (s.chan n).claim = some k) (x : TakeExtent) : s.takeAccepted n r x = s.takeIndication n k r.indication x := by
  unfold State.takeAccepted
  rw [h, hk]

/-! ## ENTER (R104, R24) -/

theorem Channel.enterTube_assigned {c : Channel} (h : c.state = .assigned) : c.enterTube = { c with state := .probing } := by
  unfold Channel.enterTube
  rw [h]

/-- A STALLED channel that takes an ENTER was ASSIGNED before (R102). -/
theorem Channel.enterTube_resting {c : Channel} (hw : c.working = .assigned)
    (h : c.state = .stalled ∨ (c.state = .halted ∧ c.prior = some .assigned)) :
    c.enterTube = { c with prior := some .probing } := by
  have hp : c.prior = some .assigned := by
    rcases h with hs | ⟨-, hp⟩
    · cases hprior : c.prior with
      | none => unfold Channel.working at hw; rw [hs, hprior] at hw; exact nomatch hw
      | some p => rw [Channel.working_stalled hs hprior] at hw; rw [hw]
    · exact hp
  unfold Channel.enterTube
  rcases h with hs | ⟨hs, -⟩ <;> rw [hs, hp]

theorem Channel.enterTube_interrupted {c : Channel} (h : c.state = .halted) (hp : c.prior = some .stalled) :
    c.enterTube = { c with interrupted := some .probing } := by
  unfold Channel.enterTube
  rw [h, hp]

theorem Channel.enterTube_reloaded (c : Channel) (k : ReportKind) (now : Nat) :
    c.enterTube.reloaded k now = c.reloaded k now := by
  rw [Channel.enterTube_kept]
  rfl

/-- An accepted ENTER: the tube IN_TEST, the channel PROBING in its place (R104, R24). -/
theorem State.takeEnter_spec {s : State} {n : Fin 8} {k : Claim} {u : Tube} (hu : s.tube k.tube = some u)
    (hclaimed : u.state = .claimed) :
    (s.takeEnter n k).tube k.tube = some u.enterTest ∧ (∀ j, j ≠ k.tube → (s.takeEnter n k).tube j = s.tube j) ∧
    s.completes (s.takeEnter n k) ∧ s.watched (s.takeEnter n k) k.tube ∧
    (s.takeEnter n k).chans =
      s.chans.set n { (s.chan n).enterTube with timer := (s.chan n).reloaded .enter s.clock } ∧
    s.takeEnter n k = { s with
      map := { s.map with
        tubes := (s.takeEnter n k).map.tubes, census := (s.takeEnter n k).map.census
        armed := (s.takeEnter n k).map.armed }
      notices := (s.takeEnter n k).notices, chans := (s.takeEnter n k).chans } := by
  have hentered : ∀ j, (s.setChan n (s.chan n).enterTube).tube j = s.tube j := fun _ => rfl
  have hquiet := State.changeTube_quiet (s.setChan n (s.chan n).enterTube) k.tube Tube.enterTest fun _ _ => .inr rfl
  have hframe := State.changeTube_frame (s.setChan n (s.chan n).enterTube) k.tube Tube.enterTest
  have htube := State.changeTube_tube (s.setChan n (s.chan n).enterTube) k.tube
  have hcompletes := State.changeTube_completes (s.setChan n (s.chan n).enterTube) k.tube Tube.enterTest
  have hwatched := State.changeTube_watched (s.setChan n (s.chan n).enterTube) k.tube Tube.enterTest u hu
    (by rw [hclaimed]; exact nofun) rfl
  have htake : s.takeEnter n k =
      ((s.setChan n (s.chan n).enterTube).changeTube k.tube Tube.enterTest).reloadFor n .enter := rfl
  rw [hquiet.1, hquiet.2] at hframe
  have hchan : ((s.setChan n (s.chan n).enterTube).changeTube k.tube Tube.enterTest).chan n = (s.chan n).enterTube :=
    (congrArg (Eight.get · n) hquiet.1).trans ((State.setChan_chan s n n _).trans (if_pos rfl))
  have hclock : ((s.setChan n (s.chan n).enterTube).changeTube k.tube Tube.enterTest).clock = s.clock := by
    rw [hframe]
    rfl
  rw [State.reloadFor_eq, hchan, hclock, hquiet.1, Channel.enterTube_reloaded] at htake
  rw [htake]
  refine ⟨?_, fun j hj => ?_, ?_, State.watched_of_notices (State.watched_of_map hwatched rfl) rfl,
    Eight.set_set s.chans n _ _, ?_⟩
  · refine (htube k.tube Tube.enterTest).trans ?_
    rw [if_pos rfl, hentered, hu]
    rfl
  · exact (htube j Tube.enterTest).trans (if_neg hj.symm)
  · exact State.completes_of_same (State.completes_earlier hcompletes rfl ⟨rfl, rfl⟩ rfl fun _ hm _ => hm) rfl rfl
  · generalize (s.setChan n (s.chan n).enterTube).changeTube k.tube Tube.enterTest = w at hframe ⊢
    rw [hframe]
    rfl

/-! ## PROGRESS, FAR_END and INDICATION (R105 to R107) -/

theorem State.takeProgress_same {s : State} {n : Fin 8} {count : Nat} (h : (s.chan n).lastCount = some count) :
    s.takeProgress n count = s := by
  unfold State.takeProgress
  exact if_pos h

theorem State.takeProgress_new {s : State} {n : Fin 8} {count : Nat} (h : (s.chan n).lastCount ≠ some count) :
    s.takeProgress n count = { s with
      chans := s.chans.set n
        { s.chan n with lastCount := some count, timer := (s.chan n).reloaded .progress s.clock } } := by
  unfold State.takeProgress
  refine (if_neg h).trans ?_
  rw [State.setChan_reloadFor]
  rfl

theorem State.takeFarEnd_eq (s : State) (n : Fin 8) (k : Claim) : s.takeFarEnd n k = { s with
    chans := s.chans.set n
      { s.chan n with claim := some { k with farEnd := true }, timer := (s.chan n).reloaded .farEnd s.clock } } := by
  unfold State.takeFarEnd
  rw [State.setChan_reloadFor]
  rfl

/-- An INDICATION by what its reduction comes to (R106, R128, R139). -/
theorem State.takeIndication_spec (s : State) (n : Fin 8) (k : Claim) (x : Indication) (out : Reduced)
    (hout : out = reduce s.map.params (s.map.landmarks.getD []) s.freqs k (s.chan n).cal x) :
    (out = .discarded → ∀ ext, s.takeIndication n k x ext = { s with
      chans := s.chans.set n { s.chan n with timer := (s.chan n).reloaded .indication s.clock } }) ∧
    (out = .overtravel → ∀ ext, s.takeIndication n k x ext = { s with
      chans := s.chans.set n
        { s.chan n with
          timer := (s.chan n).reloaded .indication s.clock, overtravelMarks := (s.chan n).overtravelMarks + 1 } }) ∧
    ∀ m, out = .measured m →
      s.takeIndication n k x .whole = State.fileMeasurement
        { s with chans := s.chans.set n { s.chan n with timer := (s.chan n).reloaded .indication s.clock } } m ∧
      s.takeIndication n k x .moment = { s with
        chans := s.chans.set n
          { s.chan n with timer := (s.chan n).reloaded .indication s.clock, filing := some m }
        hand := some (.filing n) } := by
  have hset : ∀ c c' : Channel, (({ s with chans := s.chans.set n c } : State).setChan n c') =
      { s with chans := s.chans.set n c' } := fun c c' =>
    congrArg (fun v => ({ s with chans := v } : State)) (Eight.set_set s.chans n c c')
  have hget : ∀ c : Channel, ({ s with chans := s.chans.set n c } : State).chan n = c := fun c =>
    (Eight.get_set s.chans n n c).trans (if_pos rfl)
  unfold State.takeIndication
  rw [State.reloadFor_eq, ← hout]
  refine ⟨?_, ?_, ?_⟩
  · rintro rfl ext
    rfl
  · rintro rfl ext
    dsimp only
    rw [hget, hset]
  · rintro m rfl
    refine ⟨rfl, ?_⟩
    dsimp only
    unfold State.holdMeasurement
    rw [hget, hset]

/-! ## A measurement in hand (R139) -/

theorem State.reportTake_filing {s : State} {n : Fin 8} (h : s.hand = some (.filing n)) (x : TakeExtent) :
    s.reportTake x = ({ s with hand := none } : State).handOver n := by
  unfold State.reportTake
  rw [h]
  rfl

theorem State.handOver_none {s : State} {n : Fin 8} (h : (s.chan n).filing = none) : s.handOver n = s := by
  unfold State.handOver
  dsimp only
  rw [h]

theorem State.handOver_some {s : State} {n : Fin 8} {m : Measurement} (h : (s.chan n).filing = some m) :
    s.handOver n = (s.setChan n { s.chan n with filing := none }).fileMeasurement m := by
  unfold State.handOver
  dsimp only
  rw [h]

/-- Settles O48, event by event. -/
theorem passEvents : Obligations.PassEvents := by
  unfold Obligations.PassEvents
  refine ⟨fun s x n hh hhand => ?hand, ?_⟩
  case hand =>
    rw [exec_reportTake hh, State.reportTake_filing hhand]
    refine ⟨fun hf => ?_, fun m hf => ?_⟩
    · rw [State.handOver_none (s := { s with hand := none }) hf]
    · rw [State.handOver_some (s := { s with hand := none }) hf]
      rfl
  intro s s0 x n r c k ev timer hh h hc ha hk hev htimer
  subst hc
  obtain ⟨hclock, -, hmap, -, hfreqs, -, hchans, -, -, hnotices⟩ := State.handles_kept h
  have hchan := State.handles_chan h r.chan
  have hclaim : (s0.chan r.chan).claim = some k := by rw [hchan]; exact hk
  have hholds : ev = (s.chan r.chan).config.reloads.holds r.kind := by
    rw [hev]
    cases r.kind <;> rfl
  have hreload : timer = (s0.chan r.chan).reloaded r.kind s0.clock := by
    rw [htimer, hholds, hchan, hclock]
    rfl
  rw [State.handles_accepted hh h ha, ← hchan, ← hchans, hreload]
  refine ⟨fun hkind u hu hclaimed => ?onEnter, fun hkind => ?onProgress, fun hkind => ?onFarEnd,
    fun hkind i hi out hout => ?onIndication⟩
  case onEnter =>
    rw [State.takeAccepted_enter hkind hclaim, hkind]
    have hu0 : s0.tube k.tube = some u := by unfold State.tube; rw [hmap]; exact hu
    have hworking : (s0.chan r.chan).working = .assigned := by
      rw [hchan]
      exact ((Channel.accepts_event (by rw [hkind]; decide)).mp ha).1 hkind
    obtain ⟨hown, hothers, hcompletes, hwatched, hnow, hframe⟩ := State.takeEnter_spec (n := r.chan) hu0 hclaimed
    have hset : ∀ m, (s0.takeEnter r.chan k).chan m = if r.chan = m then
        { (s0.chan r.chan).enterTube with timer := (s0.chan r.chan).reloaded .enter s0.clock } else s0.chan m := by
      intro m
      unfold State.chan
      rw [hnow]
      exact Eight.get_set s0.chans r.chan m _
    refine ⟨_, rfl, hown, fun j hj => ?_, ?_, fun hs => ?_, fun hs => ?_, fun hs hp => ?_, fun m hm => ?_, ?_, ?_⟩
    · rw [hothers j hj]
      unfold State.tube
      rw [hmap]
    · exact State.completes_earlier hcompletes (by rw [hmap]) (by rw [hmap]; exact ⟨rfl, rfl⟩) (by rw [hmap])
        fun _ hm _ => hnotices ▸ hm
    · rw [hset, if_pos rfl, Channel.enterTube_assigned hs]
    · rw [hset, if_pos rfl, Channel.enterTube_resting hworking hs]
    · rw [hset, if_pos rfl, Channel.enterTube_interrupted hs hp]
    · rw [hset, if_neg hm.symm, State.handles_chan h]
    · exact State.watched_of_map hwatched hmap
    · rw [← hmap]
      exact hframe
  case onProgress =>
    rw [State.takeAccepted_progress hkind hclaim, hkind]
    exact ⟨fun hl => by rw [State.takeProgress_same hl], fun hl => by rw [State.takeProgress_new hl]⟩
  case onFarEnd =>
    rw [State.takeAccepted_farEnd hkind hclaim, hkind, State.takeFarEnd_eq]
  case onIndication =>
    rw [State.takeAccepted_indication hkind hclaim, hkind]
    rw [← hmap, ← hfreqs] at hout
    obtain ⟨hdiscarded, hover, hmeasured⟩ := s0.takeIndication_spec r.chan k r.indication out (by rw [hout, hi]; rfl)
    refine ⟨fun ho => by rw [hdiscarded ho], fun ho => by rw [hover ho], fun m ho => ⟨?_, ?_⟩⟩
    · rintro rfl
      rw [(hmeasured m ho).1]
    · rintro rfl
      rw [(hmeasured m ho).2]

end Sys2Proof.Machine
end

section
/-! The end of a pass (O49). -/

namespace Sys2Proof.Machine

/-- A tube that becomes BLOCKED posts its notice (R29). -/
theorem State.changeTube_told_blocked {s : State} {i : Nat} {f : Tube → Tube} {t : Tube} (ht : s.tube i = some t)
    (hm : t.state ≠ .blocked) (hf : (f t).state = .blocked) : (s.changeTube i f).notices.told .blocked i := by
  unfold State.changeTube
  rw [ht]
  dsimp only
  have hmoved : decide (t.state ≠ (f t).state) = true := decide_eq_true (by rw [hf]; exact hm)
  rw [hmoved, if_pos rfl, hf, if_neg (by decide), if_pos (by decide)]
  exact told_of_kept (fun _ hP hn => State.postWatch_notices hP _ _ (State.completionAfter_notices hP _ _ hn))
    (NoticeUnit.post_told _ _ _)

/-! ## The outcome at the tube map (R26 to R29) -/

/-- A tube's record after a pass outcome and the evaluation of a COMPLETE one (R26, R27). -/
def Tube.passed (u : Tube) (p : Params) (st : Store) (o : PassOutcome) : Tube :=
  if o = .complete then (u.afterPass p.attemptLimit o).evaluated p.plugLimit st else u.afterPass p.attemptLimit o

theorem Tube.afterPass_pos (u : Tube) (limit : Nat) (o : PassOutcome) :
    (u.afterPass limit o).pos = u.pos ∧ (u.afterPass limit o).planned = u.planned := by
  cases o <;> exact ⟨rfl, rfl⟩

/-- No outcome leaves a tube IN_TEST. -/
theorem Tube.afterPass_state (u : Tube) (limit : Nat) (o : PassOutcome) :
    (u.afterPass limit o).state = .tested ∨ (u.afterPass limit o).state = .retest ∨
      (u.afterPass limit o).state = .blocked := by
  cases o
  case complete => exact .inl rfl
  case gap => exact .inr (.inl rfl)
  all_goals
    by_cases h : limit ≤ u.attempts + 1
    · exact .inr (.inr (if_pos h))
    · exact .inr (.inl (if_neg h))

theorem Tube.passed_complete (u : Tube) (p : Params) (st : Store) :
    u.passed p st .complete = Tube.evaluated
      { u with claim := none, state := .tested, passes := min (u.passes + 1) 15 } p.plugLimit st := rfl

theorem Tube.passed_complete_state (u : Tube) (p : Params) (st : Store) :
    (u.passed p st .complete).state.claimable = false := by
  rw [Tube.passed_complete]
  exact evaluationState_unclaimable _ _ _

section Outcome

variable {s : State} {i : Nat} {u : Tube} (hu : s.tube i = some u) (hs : u.state = .inTest)
include hu hs

theorem State.passOutcome_moves (o : PassOutcome) :
    (s.changeTube i (Tube.afterPass s.map.params.attemptLimit o)).tube i =
      some (u.afterPass s.map.params.attemptLimit o) ∧ u.state ≠ (u.afterPass s.map.params.attemptLimit o).state := by
  refine ⟨?_, ?_⟩
  · rw [State.changeTube_tube, if_pos rfl, hu]
    rfl
  · rw [hs]
    rcases u.afterPass_state s.map.params.attemptLimit o with h | h | h <;> rw [h] <;> nofun

theorem State.passOutcome_tube (o : PassOutcome) (j : Nat) : (s.passOutcome i o).tube j =
    if i = j then some (u.passed s.map.params s.store o) else s.tube j := by
  obtain ⟨hown, -⟩ := State.passOutcome_moves hu hs o
  have hother := State.changeTube_tube s i j (Tube.afterPass s.map.params.attemptLimit o)
  have hframe := State.changeTube_frame s i (Tube.afterPass s.map.params.attemptLimit o)
  unfold State.passOutcome Tube.passed
  dsimp only
  by_cases ho : o = .complete
  · rw [if_pos ho, if_pos ho, State.evaluate_tube _ i _ hown, hother]
    by_cases hj : i = j
    · rw [if_pos hj, if_pos hj, hframe]
      rfl
    · rw [if_neg hj, if_neg hj, if_neg hj]
  · rw [if_neg ho, if_neg ho, hother]
    by_cases hj : i = j
    · subst hj
      rw [if_pos rfl, if_pos rfl, hu]
      rfl
    · rw [if_neg hj, if_neg hj]

theorem State.passOutcome_watched (o : PassOutcome) : s.watched (s.passOutcome i o) i := by
  have hw := State.changeTube_watched s i _ u hu (State.passOutcome_moves hu hs o).2 (u.afterPass_pos _ o).1
  unfold State.passOutcome
  dsimp only
  split
  · exact State.watched_later hw fun _ hP hn => State.evaluate_notices hP _ _ hn
  · exact hw

theorem State.passOutcome_completes (hc : s.censusTrue) (o : PassOutcome) : s.completes (s.passOutcome i o) := by
  unfold State.passOutcome
  dsimp only
  split
  · next ho =>
    subst ho
    refine State.changeTube_evaluate_completes s i _ u hu hc rfl ?_
    show (u.planned && !TubeState.terminal .tested) = (u.planned && !u.state.terminal)
    rw [hs]
    rfl
  · exact State.changeTube_completes s i _

/-- A tube that becomes RETEST signals; another outcome leaves channels and walker alone (R37). -/
theorem State.passOutcome_signals (o : PassOutcome) :
    ((u.passed s.map.params s.store o).state = .retest → ∀ n, s.signalledChannel (s.passOutcome i o) n) ∧
    ((u.passed s.map.params s.store o).state ≠ .retest →
      (s.passOutcome i o).chans = s.chans ∧ (s.passOutcome i o).walker = s.walker) := by
  obtain ⟨-, hmoved⟩ := State.passOutcome_moves hu hs o
  by_cases ho : o = .complete
  · subst ho
    refine ⟨fun hr => ?_, fun _ => ?_⟩
    · have := u.passed_complete_state s.map.params s.store
      rw [hr] at this
      exact nomatch this
    · obtain ⟨hchans, hwalker⟩ := State.changeTube_quiet s i (Tube.afterPass s.map.params.attemptLimit .complete)
        fun _ _ => .inr rfl
      obtain ⟨hchans', hwalker'⟩ := State.evaluate_quiet
        (s.changeTube i (Tube.afterPass s.map.params.attemptLimit .complete)) i
      exact ⟨hchans'.trans hchans, hwalker'.trans hwalker⟩
  · have hpass : s.passOutcome i o = s.changeTube i (Tube.afterPass s.map.params.attemptLimit o) := if_neg ho
    have hrecord : u.passed s.map.params s.store o = u.afterPass s.map.params.attemptLimit o := if_neg ho
    rw [hpass, hrecord]
    refine ⟨fun hr => State.changeTube_signalledChannel hu hmoved (by rw [hr]; rfl), fun hr => ?_⟩
    refine State.changeTube_quiet s i _ fun t ht => .inr ?_
    obtain rfl := Option.some.inj (ht.symm.trans hu)
    rcases t.afterPass_state s.map.params.attemptLimit o with h | h | h
    · rw [h]; rfl
    · exact absurd h hr
    · rw [h]; rfl

theorem State.passOutcome_told_blocked {o : PassOutcome} (ho : o = .short ∨ o = .obstructed)
    (hl : s.map.params.attemptLimit ≤ u.attempts + 1) : (s.passOutcome i o).notices.told .blocked i := by
  have hne : o ≠ .complete := by rcases ho with rfl | rfl <;> nofun
  rw [show s.passOutcome i o = s.changeTube i (Tube.afterPass s.map.params.attemptLimit o) from if_neg hne]
  refine State.changeTube_told_blocked hu (by rw [hs]; nofun) ?_
  rcases ho with rfl | rfl <;> exact if_pos hl

end Outcome

theorem State.passOutcome_frame (s : State) (i : Nat) (o : PassOutcome) : s.passOutcome i o = { s with
    map := { s.map with
      tubes := (s.passOutcome i o).map.tubes, census := (s.passOutcome i o).map.census
      armed := (s.passOutcome i o).map.armed }
    notices := (s.passOutcome i o).notices
    chans := (s.passOutcome i o).chans
    walker := { s.walker with
      waiting := (s.passOutcome i o).walker.waiting, seek := (s.passOutcome i o).walker.seek } } := by
  unfold State.passOutcome
  dsimp only
  split
  · rw [State.evaluate_frame, State.changeTube_frame]
  · rw [State.changeTube_frame]

/-! ## The channel behind it (R111) -/

/-- The channel that held the claim, as the outcome leaves it. -/
theorem State.passOutcome_chan {s : State} {i : Nat} {u : Tube} (hu : s.tube i = some u) (hs : u.state = .inTest)
    (o : PassOutcome) {n : Fin 8} (hc : (s.chan n).state ≠ .idle) : (s.passOutcome i o).chan n =
      { s.chan n with
        exhausted := (s.chan n).exhausted && decide ((u.passed s.map.params s.store o).state ≠ .retest) } := by
  obtain ⟨hsignals, hquiet⟩ := State.passOutcome_signals hu hs o
  by_cases hr : (u.passed s.map.params s.store o).state = .retest
  · rw [(hsignals hr n).1, Channel.signalled_eq, Channel.signalled_state hc, decide_eq_false (not_not.mpr hr),
      Bool.and_false]
  · rw [decide_eq_true hr, Bool.and_true]
    exact congrArg (Eight.get · n) (hquiet hr).1

theorem State.passEnd_frame (s : State) (n : Fin 8) (k : Claim) (o : PassOutcome) : s.passEnd n k o = { s with
    map := { s.map with
      tubes := (s.passEnd n k o).map.tubes, census := (s.passEnd n k o).map.census, armed := (s.passEnd n k o).map.armed }
    notices := (s.passEnd n k o).notices
    chans := (s.passEnd n k o).chans
    walker := { s.walker with
      waiting := (s.passEnd n k o).walker.waiting, seek := (s.passEnd n k o).walker.seek } } := by
  unfold State.passEnd
  dsimp only
  rw [State.testSeek_frame, State.passOutcome_frame]
  rfl

theorem State.passEnd_map (s : State) (n : Fin 8) (k : Claim) (o : PassOutcome) :
    (s.passEnd n k o).map = (s.passOutcome k.tube o).map ∧
    (s.passEnd n k o).notices = (s.passOutcome k.tube o).notices := by
  unfold State.passEnd
  dsimp only
  rw [State.testSeek_frame]
  exact ⟨rfl, rfl⟩

/-- Another channel takes no more of a pass's end than the outcome brings it. -/
theorem State.passEnd_other (s : State) {n m : Fin 8} (hm : m ≠ n) (k : Claim) (o : PassOutcome) :
    (s.passOutcome k.tube o).sameChannel (s.passEnd n k o) m :=
  State.sameChannel_trans (State.sameChannel_setChan _ hm _) (State.sameChannel_testSeek _ hm)

section Behind

variable {s : State} {n : Fin 8} {k : Claim} {o : PassOutcome} {c : Channel} {e : Bool}
  (hown : (s.passOutcome k.tube o).chan n = { c with exhausted := e })
include hown

theorem State.passEnd_chan : (s.passEnd n k o).chan n = { c.dropClaim with
    exhausted := e
    state := ((s.passEnd n k o).chan n).state
    prior := Channel.prior (Channel.endPass { c with exhausted := e })
    interrupted := Channel.interrupted (Channel.endPass { c with exhausted := e }) } := by
  unfold State.passEnd
  dsimp only
  refine (State.testSeek_own _ n).trans ?_
  generalize ((((s.passOutcome k.tube o).setChan n ((s.passOutcome k.tube o).chan n).endPass).testSeek n).chan n).state = x
  rw [State.chan_setChan, if_pos rfl, hown]
  conv_lhs => rw [Channel.endPass_eq]
  rfl

theorem State.passEnd_halted (h : c.state = .halted) : ((s.passEnd n k o).chan n).state = .halted ∧
    ((s.passEnd n k o).chan n).prior = some .idle ∧ ((s.passEnd n k o).chan n).interrupted = none := by
  have hend := Channel.endPass_halted (c := { c with exhausted := e }) h
  rw [State.passEnd_chan hown, hend]
  refine ⟨?_, rfl, rfl⟩
  unfold State.passEnd
  dsimp only
  rw [State.testSeek_chan, State.chan_setChan, if_pos rfl, hown, hend, if_neg]
  · exact h
  · exact fun hx => absurd (hx.2.1.symm.trans h) (by decide)

theorem State.passEnd_moving (h : c.state = .probing ∨ c.state = .stalled) :
    ((s.passEnd n k o).chan n).prior = none ∧ ((s.passEnd n k o).chan n).interrupted = none ∧
    ((s.passEnd n k o).chan n).state = (if 0 < c.config.priority ∧ e = false then .seeking else .idle) ∧
    (0 < c.config.priority ∧ e = false → (s.passEnd n k o).walker.waiting.get n = true) := by
  have hend := Channel.endPass_moving (c := { c with exhausted := e }) (.inr h)
  rw [State.passEnd_chan hown, hend]
  refine ⟨rfl, rfl, ?_, fun hseek => ?_⟩
  · unfold State.passEnd
    dsimp only
    rw [State.testSeek_chan, State.chan_setChan, if_pos rfl, hown, hend]
    by_cases hseek : 0 < c.config.priority ∧ e = false
    · rw [if_pos hseek, if_pos ⟨rfl, rfl, hseek⟩]
    · rw [if_neg hseek, if_neg fun hx => hseek hx.2.2]
  · unfold State.passEnd
    dsimp only
    rw [State.testSeek_waiting, State.chan_setChan, if_pos rfl, hown, hend]
    exact .inr ⟨rfl, rfl, hseek⟩

end Behind

/-- The outcome of an accepted EXIT or OBSTRUCTED (R110). -/
theorem State.takeAccepted_end {s : State} {n : Fin 8} {r : Report} {k : Claim} (hk : (s.chan n).claim = some k)
    (hr : r.kind = .exit ∨ r.kind = .obstructed) (x : TakeExtent) :
    ∃ o, s.takeAccepted n r x = s.passEnd n k o ∧
      (r.kind = .exit → k.farEnd = true → k.dataGap = false → o = .complete) ∧
      (r.kind = .exit → k.farEnd = true → k.dataGap = true → o = .gap) ∧
      (r.kind = .obstructed ∨ k.farEnd = false → o = .short ∨ o = .obstructed) := by
  unfold State.takeAccepted
  rw [hk]
  rcases hr with hr | hr <;> rw [hr]
  · refine ⟨exitOutcome k, rfl, fun _ h1 h2 => ?_, fun _ h1 h2 => ?_, fun h => .inl ?_⟩
    · rw [exitOutcome, h1, h2]
      rfl
    · rw [exitOutcome, h1, h2]
      rfl
    · rw [exitOutcome, h.resolve_left nofun]
      rfl
  · exact ⟨.obstructed, rfl, nofun, nofun, fun _ => .inr rfl⟩

theorem Tube.passed_attempt {u : Tube} {p : Params} {st : Store} {o : PassOutcome} (ho : o = .short ∨ o = .obstructed) :
    u.passed p st o =
      { u with
        claim := none, attempts := u.attempts + 1
        state := if p.attemptLimit ≤ u.attempts + 1 then .blocked else .retest } := by
  rcases ho with rfl | rfl <;> rfl

/-- A channel whose reports of the pass are accepted is in its pass (R102). -/
theorem Channel.state_of_probing {c : Channel} (h : c.working = .probing) :
    c.state = .probing ∨ c.state = .stalled ∨ c.state = .halted := by
  by_cases h1 : c.state = .stalled
  · exact .inr (.inl h1)
  · by_cases h2 : c.state = .halted
    · exact .inr (.inr h2)
    · exact .inl ((Channel.working_plain h1 h2).symm.trans h)

/-- Settles O49: the outcome at the tube map, then the channel behind it. -/
theorem passEnds : Obligations.PassEnds := by
  unfold Obligations.PassEnds
  intro s s0 x n r c k u hh h hc ha hk hr hu hs
  subst hc
  obtain ⟨-, -, hmap, hstore, -, -, hchans, hwalker, -, hnotices⟩ := State.handles_kept h
  have hchan : ∀ m, s0.chan m = s.chan m := State.handles_chan h
  have hsame0 : ∀ m, s.sameChannel s0 m := State.sameChannel_of hchans hwalker
  have hu0 : s0.tube k.tube = some u := by unfold State.tube; rw [hmap]; exact hu
  have hprobing : (s.chan r.chan).working = .probing := by
    have hkind : r.kind ≠ .heartbeat := by rcases hr with hr | hr <;> rw [hr] <;> nofun
    exact ((Channel.accepts_event hkind).mp ha).2.1 (by rcases hr with hr | hr <;> rw [hr] <;> nofun)
  have hstate := Channel.state_of_probing hprobing
  have hne : (s0.chan r.chan).state ≠ .idle := by
    rw [hchan]
    rcases hstate with hx | hx | hx <;> rw [hx] <;> nofun
  obtain ⟨o, hend, hcomplete, hgap, hattempt⟩ := State.takeAccepted_end (s := s0) (by rw [hchan]; exact hk) hr x
  have hv := State.passOutcome_tube hu0 hs o
  obtain ⟨hsignals, hquiet⟩ := State.passOutcome_signals hu0 hs o
  have hown := State.passOutcome_chan hu0 hs o hne
  obtain ⟨htmap, htnotices⟩ := s0.passEnd_map r.chan k o
  have hparams : s0.map.params = s.map.params := by rw [hmap]
  rw [hparams, hstore] at hv hsignals hquiet hown
  rw [hchan] at hown
  have htube : ∀ j, (s0.passEnd r.chan k o).tube j = (s0.passOutcome k.tube o).tube j := fun j => by
    unfold State.tube
    rw [htmap]
  generalize hvv : u.passed s.map.params s.store o = v at hv hsignals hquiet hown
  rw [State.handles_accepted hh h ha, hend]
  refine ⟨_, v, rfl, (htube k.tube).trans ((hv k.tube).trans (if_pos rfl)), fun h1 h2 h3 => ?_, fun h1 h2 h3 => ?_,
    fun h1 => ⟨fun hl => ?_, fun hl => ⟨?_, ?_⟩⟩, fun j hj => ?_, ?_⟩
  · rw [← hvv, hcomplete h1 h2 h3, Tube.passed_complete]
  · rw [← hvv, hgap h1 h2 h3]
    rfl
  · rw [← hvv, Tube.passed_attempt (hattempt h1), if_neg (by omega)]
  · rw [← hvv, Tube.passed_attempt (hattempt h1), if_pos (by omega)]
  · rw [htnotices]
    exact State.passOutcome_told_blocked hu0 hs (hattempt h1) (by rw [hparams]; omega)
  · rw [htube, hv, if_neg hj.symm]
    unfold State.tube
    rw [hmap]
  · have hrest := State.passEnd_chan hown
    have hhalted := fun hx => State.passEnd_halted (k := k) (o := o) hown hx
    have hmoving := fun hx => State.passEnd_moving (k := k) (o := o) hown hx
    refine ⟨congrArg Channel.claim hrest, congrArg Channel.lastCount hrest, congrArg (fun c => c.timer.mode) hrest,
      congrArg (fun c => c.timer.count) hrest, (congrArg Channel.config hrest).trans rfl, (congrArg Channel.cal hrest).trans rfl,
      congrArg Channel.filing hrest, congrArg Channel.overtravelMarks hrest, (congrArg Channel.gapMarks hrest).trans rfl,
      fun hx => ?_, congrArg Channel.exhausted hrest, hhalted, fun m hm => ⟨fun hret => ?_, fun hret => ?_⟩, ?_,
      fun hcensus => ?_, ?_⟩
    · obtain ⟨hprior, hint, hseeks, hwait⟩ := hmoving hx
      refine ⟨hprior, hint, _, rfl, ?_, fun hseek => ?_⟩
      · rw [hseeks]
        simp only [Bool.and_eq_false_iff, decide_eq_false_iff_not, not_not, decide_eq_true_eq]
      · refine hwait ?_
        simpa only [Bool.and_eq_false_iff, decide_eq_false_iff_not, not_not, decide_eq_true_eq] using hseek
    · exact State.signalledChannel_later (State.signalledChannel_earlier (hsame0 m) (hsignals hret m))
        (s0.passEnd_other hm k o)
    · obtain ⟨hqc, hqw⟩ := hquiet hret
      exact State.sameChannel_trans (State.sameChannel_trans (hsame0 m) (State.sameChannel_of hqc hqw m))
        (s0.passEnd_other hm k o)
    · exact State.watched_of_notices (State.watched_of_map (State.passOutcome_watched hu0 hs o) hmap) htnotices
    · have hcensus0 : s0.censusTrue := by unfold State.censusTrue; rw [hmap]; exact hcensus
      refine State.completes_of_same (State.completes_earlier (State.passOutcome_completes hu0 hs hcensus0 o) (by rw [hmap])
        (by rw [hmap]; exact ⟨rfl, rfl⟩) (by rw [hmap]) fun m hm _ => hnotices ▸ hm) htmap htnotices
    · rw [← hmap, ← hwalker]
      exact s0.passEnd_frame r.chan k o

end Sys2Proof.Machine
end

section
/-! The reduction of an indication (O51). -/

namespace Sys2Proof.Machine

/-! ## The depth on a curve (R136, R137) -/

/-- A quotient rounded to the nearest whole number (R137). -/
theorem roundAway_spec (num : Int) {den : Nat} (hd : 0 < den) :
    (0 ≤ num → 0 ≤ roundAway num den) ∧ (num ≤ 0 → roundAway num den ≤ 0) ∧
    2 * den * (roundAway num den).natAbs ≤ 2 * num.natAbs + den ∧
    2 * num.natAbs + den < 2 * den * ((roundAway num den).natAbs + 1) := by
  have hlow := Nat.mul_div_le (2 * num.natAbs + den) (2 * den)
  have hhigh := Nat.lt_mul_div_succ (2 * num.natAbs + den) (show 0 < 2 * den by omega)
  have hzero : num = 0 → (2 * num.natAbs + den) / (2 * den) = 0 := by
    rintro rfl
    exact Nat.div_eq_of_lt (by simp; omega)
  have hround : roundAway num den =
    if num < 0 then -(((2 * num.natAbs + den) / (2 * den) : Nat) : Int) else ((2 * num.natAbs + den) / (2 * den) : Nat) := rfl
  generalize (2 * num.natAbs + den) / (2 * den) = q at hlow hhigh hzero hround
  have habs : (roundAway num den).natAbs = q := by
    rw [hround]
    split <;> omega
  rw [habs]
  refine ⟨fun h => ?_, fun h => ?_, hlow, hhigh⟩
  · rw [hround, if_neg (by omega)]
    omega
  · rw [hround]
    split <;> omega

/-- Between two points the rounded step stays within the difference of their depths. -/
theorem roundAway_bound {delta x : Int} {den : Nat} (hx : 0 ≤ x) (hlt : x < den) :
    (0 ≤ delta → 0 ≤ roundAway (delta * x) den ∧ roundAway (delta * x) den ≤ delta) ∧
    (delta ≤ 0 → roundAway (delta * x) den ≤ 0 ∧ delta ≤ roundAway (delta * x) den) := by
  have hd : 0 < den := by omega
  obtain ⟨hpos, hneg, hlow, -⟩ := roundAway_spec (delta * x) hd
  have habs : (delta * x).natAbs ≤ delta.natAbs * den := by
    rw [Int.natAbs_mul]
    exact Nat.mul_le_mul_left _ (by omega)
  have hle : (roundAway (delta * x) den).natAbs ≤ delta.natAbs := by
    by_contra hgt
    have h1 : 2 * den * (delta.natAbs + 1) ≤ 2 * den * (roundAway (delta * x) den).natAbs :=
      Nat.mul_le_mul_left _ (by omega)
    have h2 : 2 * den * (delta.natAbs + 1) = 2 * (delta.natAbs * den) + 2 * den := by ring
    omega
  refine ⟨fun h => ?_, fun h => ?_⟩
  · have := hpos (mul_nonneg h hx)
    omega
  · have := hneg (mul_nonpos_of_nonpos_of_nonneg h hx)
    omega

/-- The depth between two points of a rising curve (R137). -/
theorem interpolate_eq {a b : CurvePoint} {p : Nat} (ha : a.phase ≤ p) (hb : p < b.phase) :
    (interpolate a b p : Int) = a.depth +
      roundAway (((b.depth : Int) - a.depth) * ((p : Int) - a.phase)) (b.phase - a.phase) ∧
    (interpolate a b p ≤ a.depth ∨ interpolate a b p ≤ b.depth) := by
  obtain ⟨hup, hdown⟩ := roundAway_bound (delta := (b.depth : Int) - a.depth) (x := (p : Int) - a.phase)
    (den := b.phase - a.phase) (by omega) (by omega)
  have hvalue : (interpolate a b p : Int) = _ :=
    Int.toNat_of_nonneg (by rcases le_total 0 ((b.depth : Int) - a.depth) with h | h <;> [have := hup h; have := hdown h] <;> omega)
  refine ⟨hvalue, ?_⟩
  rcases le_total 0 ((b.depth : Int) - a.depth) with h | h
  · have := hup h
    omega
  · have := hdown h
    omega

theorem curveDepth_first {a : CurvePoint} {t : List CurvePoint} {p : Nat} (h : p ≤ a.phase) :
    curveDepth p (a :: t) = some a.depth := by
  cases t with
  | nil => rfl
  | cons b t => exact if_pos h

theorem curveDepth_cons {a b : CurvePoint} {t : List CurvePoint} {p : Nat} (h : ¬ p ≤ a.phase) :
    curveDepth p (a :: b :: t) = if p < b.phase then some (interpolate a b p) else curveDepth p (b :: t) :=
  if_neg h

theorem curveDepth_last {l : List CurvePoint} {p : Nat} {z : CurvePoint} (hs : (l.map CurvePoint.phase).Pairwise (· < ·))
    (hz : l.getLast? = some z) (hp : z.phase ≤ p) : curveDepth p l = some z.depth := by
  induction l with
  | nil => exact nomatch hz
  | cons a l ih =>
    rw [List.map_cons, List.pairwise_cons] at hs
    cases l with
    | nil =>
      obtain rfl := Option.some.inj hz
      rfl
    | cons b t =>
      rw [List.getLast?_cons_cons] at hz
      have hmem : z ∈ b :: t := List.mem_of_getLast? hz
      have haz := hs.1 _ (List.mem_map_of_mem hmem)
      have hbz : b.phase ≤ z.phase := by
        rcases List.mem_cons.mp hmem with rfl | hm
        · exact Nat.le_refl _
        · exact Nat.le_of_lt ((List.pairwise_cons.mp hs.2).1 _ (List.mem_map_of_mem hm))
      rw [curveDepth_cons (by omega), if_neg (by omega)]
      exact ih hs.2 hz

theorem curveDepth_between {l : List CurvePoint} {p i : Nat} {a b : CurvePoint}
    (hs : (l.map CurvePoint.phase).Pairwise (· < ·)) (ha : l[i]? = some a) (hb : l[i + 1]? = some b)
    (hp : a.phase ≤ p) (hlt : p < b.phase) :
    curveDepth p l = some (if p = a.phase then a.depth else interpolate a b p) := by
  induction l generalizing i with
  | nil => exact nomatch ha
  | cons x l ih =>
    rw [List.map_cons, List.pairwise_cons] at hs
    cases l with
    | nil => exact nomatch hb
    | cons y t =>
      cases i with
      | zero =>
        obtain rfl := Option.some.inj ha
        obtain rfl := Option.some.inj hb
        by_cases he : p = x.phase
        · rw [if_pos he, curveDepth_first (Nat.le_of_eq he)]
        · rw [if_neg he, curveDepth_cons (by omega), if_pos hlt]
      | succ i =>
        have ha' : (y :: t)[i]? = some a := ha
        have hxa := hs.1 _ (List.mem_map_of_mem (List.mem_of_getElem? ha'))
        have hya : y.phase ≤ a.phase := by
          cases i with
          | zero => rw [Option.some.inj ha']
          | succ i => exact Nat.le_of_lt ((List.pairwise_cons.mp hs.2).1 _ (List.mem_map_of_mem (List.mem_of_getElem? ha')))
        rw [curveDepth_cons (by omega), if_neg (by omega)]
        exact ih hs.2 ha' hb

theorem curveDepth_bounded {l : List CurvePoint} {p : Nat} (hne : l ≠ []) (hs : (l.map CurvePoint.phase).Pairwise (· < ·))
    (hb : ∀ x ∈ l, x.depth ≤ 100) : ∃ d, curveDepth p l = some d ∧ d ≤ 100 := by
  induction l with
  | nil => exact absurd rfl hne
  | cons a l ih =>
    have ha := hb a List.mem_cons_self
    by_cases hp : p ≤ a.phase
    · exact ⟨a.depth, curveDepth_first hp, ha⟩
    · cases l with
      | nil => exact ⟨a.depth, rfl, ha⟩
      | cons b t =>
        rw [curveDepth_cons hp]
        by_cases hpb : p < b.phase
        · have hbb := hb b (List.mem_cons_of_mem a List.mem_cons_self)
          have hbound := (interpolate_eq (a := a) (b := b) (by omega) hpb).2
          exact ⟨_, if_pos hpb, by omega⟩
        · rw [if_neg hpb]
          rw [List.map_cons, List.pairwise_cons] at hs
          exact ih nofun hs.2 fun x hx => hb x (List.mem_cons_of_mem a hx)

/-! ## The location (R138) -/

/-- The nearest landmark of a rising table, the first of two at one distance. -/
theorem nearestLandmark_spec {axial : Nat} {best : Landmark × Nat} {l : List (Landmark × Nat)}
    (hs : (best :: l).Pairwise (fun x y => x.2 < y.2)) :
    nearestLandmark axial best l ∈ best :: l ∧ ∀ x ∈ best :: l,
      apart (nearestLandmark axial best l).2 axial < apart x.2 axial ∨
        (apart (nearestLandmark axial best l).2 axial = apart x.2 axial ∧ (nearestLandmark axial best l).2 ≤ x.2) := by
  induction l generalizing best with
  | nil =>
    refine ⟨List.mem_singleton.mpr rfl, fun x hx => .inr ?_⟩
    obtain rfl := List.mem_singleton.mp hx
    exact ⟨rfl, Nat.le_refl _⟩
  | cons y l ih =>
    rw [List.pairwise_cons, List.pairwise_cons] at hs
    obtain ⟨hbest, hy, hl⟩ := hs
    have hby := hbest y List.mem_cons_self
    rw [nearestLandmark]
    by_cases hc : apart y.2 axial < apart best.2 axial
    · rw [if_pos hc]
      obtain ⟨hmem, hall⟩ := ih (best := y) (List.pairwise_cons.mpr ⟨hy, hl⟩)
      refine ⟨List.mem_cons_of_mem best hmem, fun x hx => ?_⟩
      rcases List.mem_cons.mp hx with rfl | hx
      · have := hall y List.mem_cons_self
        omega
      · exact hall x hx
    · rw [if_neg hc]
      obtain ⟨hmem, hall⟩ := ih (best := best)
        (List.pairwise_cons.mpr ⟨fun x hx => hbest x (List.mem_cons_of_mem y hx), hl⟩)
      refine ⟨?_, fun x hx => ?_⟩
      · rcases List.mem_cons.mp hmem with h | h
        · rw [h]; exact List.mem_cons_self
        · exact List.mem_cons_of_mem _ (List.mem_cons_of_mem _ h)
      · rcases List.mem_cons.mp hx with rfl | hx
        · exact hall x List.mem_cons_self
        · rcases List.mem_cons.mp hx with rfl | hx
          · have := hall best List.mem_cons_self
            omega
          · exact hall x (List.mem_cons_of_mem best hx)

theorem supportsFrom_positions (n : Nat) (l : List Nat) : (supportsFrom n l).map Prod.snd = l := by
  induction l generalizing n with
  | nil => rfl
  | cons p l ih => rw [supportsFrom, List.map_cons, ih]

theorem mem_supportsFrom {n : Nat} {l : List Nat} {x : Landmark × Nat} :
    x ∈ supportsFrom n l → ∃ i, l[i]? = some x.2 ∧ x.1 = .support (n + i) := by
  induction l generalizing n with
  | nil => exact fun h => nomatch h
  | cons p l ih =>
    intro h
    rcases List.mem_cons.mp h with rfl | h
    · exact ⟨0, rfl, rfl⟩
    · obtain ⟨i, hi, hx⟩ := ih h
      exact ⟨i + 1, hi, by rw [hx, Nat.add_assoc, Nat.add_comm 1 i]⟩

/-- The location of an axial position among rising supports (R138). -/
theorem locate_spec {supports : List Nat} {length axial : Nat} (hs : supports.Pairwise (· < ·))
    (hin : ∀ p ∈ supports, 1 ≤ p ∧ p ≤ length - 1) (hl : 1 ≤ length) :
    ∃ pos : Nat, (locate supports length axial).2 = (axial : Int) - pos ∧
      (((locate supports length axial).1 = .tsi ∧ pos = 0) ∨
        ((locate supports length axial).1 = .tso ∧ pos = length) ∨
        ∃ i, supports[i]? = some pos ∧ (locate supports length axial).1 = .support (i + 1)) ∧
      ∀ p, p = 0 ∨ p = length ∨ p ∈ supports → apart pos axial < apart p axial ∨
        (apart pos axial = apart p axial ∧ pos ≤ p) := by
  have htable : (landmarkTable supports length).drop 1 = supportsFrom 1 supports ++ [(.tso, length)] := rfl
  have hpositions : (((.tsi, 0) :: (supportsFrom 1 supports ++ [(.tso, length)]) : List (Landmark × Nat)).map Prod.snd) =
      0 :: (supports ++ [length]) := by
    rw [List.map_cons, List.map_append, supportsFrom_positions]
    rfl
  have hsorted : (((.tsi, 0) :: (supportsFrom 1 supports ++ [(.tso, length)]) : List (Landmark × Nat))).Pairwise
      (fun x y => x.2 < y.2) := by
    rw [← List.pairwise_map (f := Prod.snd) (R := (· < ·)), hpositions, List.pairwise_cons, List.pairwise_append]
    refine ⟨fun p hp => ?_, hs, List.pairwise_singleton _ _, fun p hp q hq => ?_⟩
    · rcases List.mem_append.mp hp with hp | hp
      · exact (hin p hp).1
      · rw [List.mem_singleton.mp hp]; exact hl
    · have := hin p hp
      rw [List.mem_singleton.mp hq]
      omega
  obtain ⟨hmem, hall⟩ := nearestLandmark_spec (axial := axial) hsorted
  unfold locate
  dsimp only
  rw [htable]
  generalize nearestLandmark axial (.tsi, 0) (supportsFrom 1 supports ++ [(.tso, length)]) = best at hmem hall
  refine ⟨best.2, rfl, ?_, fun p hp => ?_⟩
  · rcases List.mem_cons.mp hmem with rfl | hmem
    · exact .inl ⟨rfl, rfl⟩
    · rcases List.mem_append.mp hmem with hmem | hmem
      · obtain ⟨i, hi, hx⟩ := mem_supportsFrom hmem
        exact .inr (.inr ⟨i, hi, by rw [hx, Nat.add_comm]⟩)
      · rw [List.mem_singleton.mp hmem]
        exact .inr (.inl ⟨rfl, rfl⟩)
  · have hp' : p ∈ ((.tsi, 0) :: (supportsFrom 1 supports ++ [(.tso, length)]) : List (Landmark × Nat)).map Prod.snd := by
      rw [hpositions, List.mem_cons, List.mem_append, List.mem_singleton]
      tauto
    obtain ⟨x, hx, rfl⟩ := List.mem_map.mp hp'
    exact hall x hx

/-- Settles O51: the discards, the overtravel, and the measurement stage by stage. -/
theorem indicationReduced : Obligations.IndicationReduced := by
  unfold Obligations.IndicationReduced
  intro params supports freqs k cal x out hout
  unfold reduce at hout
  refine ⟨fun hbad => by rw [hout, if_pos hbad], ?_⟩
  intro f travel raw phase hf hphase htravel hraw hphaseOf
  have hgood : ¬ (x.freq < 1 ∨ 4 < x.freq ∨ 4095 < x.phaseRaw) := by omega
  have hfreq : fourOf (x.freq - 1) = f := by rw [hf, Nat.add_sub_cancel, fourOf_val]
  have h1 : millimetres x.count cal.scale = travel := htravel.symm
  have h2 : amplitudeRaw x.amplitudeRaw (cal.factor.get f) = raw := hraw.symm
  have h3 : phaseOf x.phaseRaw (cal.rotation.get f) = phase := hphaseOf.symm
  rw [if_neg hgood, hfreq] at hout
  dsimp only at hout
  rw [h1, h2, h3] at hout
  refine ⟨fun hover => by rw [hout, if_pos hover], fun hin => ?_⟩
  rw [if_neg (Nat.not_lt.mpr hin)] at hout
  refine ⟨fun hlow => by rw [hout, if_pos hlow], fun hhigh => ?_⟩
  rw [if_neg (Nat.not_lt.mpr hhigh)] at hout
  refine ⟨_, hout, rfl, rfl, rfl, fun hface => by rw [hface]; rfl, fun hface => by rw [hface]; rfl, rfl, rfl, rfl,
    decide_eq_true_iff, fun curve hcurve hvalid => ?_, fun hs hsupports hl => locate_spec hs hsupports hl⟩
  obtain ⟨hlen, -, hpoints, hrising⟩ := (curveValid_iff curve).mp hvalid
  have hdepth : ∀ d, curveDepth phase curve = some d → depthOf (freqs.get f) phase = d := fun d hd => by
    unfold depthOf
    rw [hcurve, Option.bind_some, hd]
    rfl
  dsimp only
  refine ⟨?_, fun a ha hle => ?_, fun a ha hle => hdepth _ (curveDepth_last hrising ha hle), fun i a b ha hb hle hlt => ?_⟩
  · obtain ⟨d, hd, hbound⟩ := curveDepth_bounded (p := phase) (by rintro rfl; exact absurd hlen (by decide)) hrising
      fun y hy => (hpoints y hy).2
    rw [hdepth d hd]
    exact hbound
  · obtain ⟨t, rfl⟩ := List.head?_eq_some_iff.mp ha
    exact hdepth _ (curveDepth_first hle)
  · rw [hdepth _ (curveDepth_between hrising ha hb hle hlt)]
    by_cases he : phase = a.phase
    · exact ⟨0, 0, by rw [if_pos he]; omega, by rw [he]; omega, fun _ => le_rfl, fun _ => le_rfl, by simp, by simp; omega⟩
    · rw [if_neg he]
      exact ⟨_, _, (interpolate_eq hle hlt).1, rfl, roundAway_spec _ (by omega)⟩

end Sys2Proof.Machine
end

section
/-! The steps of a filing (chapter 8), said once each: what they share, and what a creation and the pool's judgement
post (R151, R155). -/

namespace Sys2Proof.Machine

/-! ## What every step of a filing under one tube keeps -/

/-- A step of a filing under tube `i` that leaves the state and the plan of every tube: only that tube's list and
truncated flag, the entries, the seats and the notices can change. -/
structure State.FilingStep (i : Nat) (s u : State) : Prop where
  frame : s.reviewsOnly u
  other : ∀ j, j ≠ i → u.tube j = s.tube j
  place : (u.tube i).map Tube.pos = (s.tube i).map Tube.pos
  census : s.censusTrue → u.censusTrue
  quiet : s.censusTrue → s.completionQuiet u

theorem State.FilingStep.trans {i : Nat} {s u v : State} (h : s.FilingStep i u) (k : u.FilingStep i v) :
    s.FilingStep i v where
  frame := h.frame.trans k.frame
  other j hj := (k.other j hj).trans (h.other j hj)
  place := k.place.trans h.place
  census := k.census ∘ h.census
  quiet hc := State.completionQuiet_trans (h.quiet hc) (k.quiet (h.census hc))

/-- A step that leaves the map alone and posts no CAMPAIGN_COMPLETE. -/
theorem State.FilingStep.of_map {i : Nat} {s u : State} (hf : s.reviewsOnly u) (hm : u.map = s.map)
    (hn : ∀ m ∈ u.notices.pending, m.cls = .campaignComplete → m ∈ s.notices.pending) : s.FilingStep i u where
  frame := hf
  other j _ := by unfold State.tube; rw [hm]
  place := by unfold State.tube; rw [hm]
  census hc := by unfold State.censusTrue; rw [hm]; exact hc
  quiet _ := ⟨by rw [hm], by rw [hm], by rw [hm], hn⟩

/-- What the notices of a step that was watched before hold for the tube as it was found. -/
theorem State.FilingStep.watched {i : Nat} {s r u : State} (h : s.FilingStep i r) (hw : r.watched u i) :
    s.watched u i := by
  intro k t ht hk
  have hplace := h.place
  rw [ht] at hplace
  obtain ⟨x, hx, hpos⟩ := Option.map_eq_some_iff.mp hplace
  refine hw k x hx ?_
  rw [h.frame, hpos]
  exact hk

theorem State.FilingStep.completes {i : Nat} {s u : State} (h : s.FilingStep i u) (hc : s.censusTrue) :
    s.completes u := by
  obtain ⟨hp, ho, ha, hn⟩ := h.quiet hc
  exact State.completes_same ⟨hp, ho⟩ ha hn

/-- The step behind a filing step judges the completion as from the beginning. -/
theorem State.FilingStep.completes_of {i : Nat} {s r u : State} (h : s.FilingStep i r) (hc : s.censusTrue)
    (hu : r.completes u) : s.completes u := by
  obtain ⟨hp, ho, ha, hn⟩ := h.quiet hc
  exact State.completes_earlier hu (by rw [h.frame]) ⟨hp, ho⟩ ha hn

/-! ## The steps -/

theorem State.changeTube_filing (s : State) (i : Nat) {f : Tube → Tube}
    (hf : ∀ t, (f t).state = t.state ∧ (f t).planned = t.planned ∧ (f t).pos = t.pos) :
    s.FilingStep i (s.changeTube i f) := by
  obtain ⟨hchans, hwalker⟩ := s.changeTube_quiet i f fun t _ => .inl (hf t).1.symm
  refine { frame := ?frame, other := fun j hj => ?other, place := ?place,
           census := (State.Keeps.changeTube (b := false) s i f).census, quiet := fun hc => ?quiet }
  case frame =>
    unfold State.reviewsOnly
    conv_lhs => rw [State.changeTube_frame, hchans, hwalker]
    rw [show (s.changeTube i f).store = s.store by rw [State.changeTube_frame],
      show (s.changeTube i f).seats = s.seats by rw [State.changeTube_frame]]
  case other => rw [State.changeTube_tube, if_neg (Ne.symm hj)]
  case place =>
    rw [State.changeTube_tube, if_pos rfl, Option.map_map]
    exact congrArg (Option.map · (s.tube i)) (funext fun t => (hf t).2.2)
  case quiet =>
    cases ht : s.tube i with
    | none => rw [State.changeTube_none s i f ht]; exact ⟨rfl, rfl, rfl, fun _ h _ => h⟩
    | some t =>
      obtain ⟨hstate, hplanned, -⟩ := hf t
      refine State.changeTube_kept s i f t ht (hc ▸ censusOf_counts (List.mem_of_getElem? ht)) hplanned ?_
      unfold Tube.isOpen
      rw [hstate, hplanned]

theorem State.setList_filing (s : State) (i : Nat) (l : List Nat) : s.FilingStep i (s.setList i l) :=
  s.changeTube_filing i fun _ => ⟨rfl, rfl, rfl⟩

theorem State.truncate_filing (s : State) (i : Nat) : s.FilingStep i (s.truncate i) :=
  s.changeTube_filing i fun _ => ⟨rfl, rfl, rfl⟩

theorem State.store_filing (s : State) (i : Nat) (st : Store) : s.FilingStep i { s with store := st } :=
  .of_map rfl rfl fun _ h _ => h

theorem State.watchTube_filing (s : State) (i j : Nat) : s.FilingStep i (s.watchTube j) := by
  obtain ⟨-, -, -, hn⟩ := s.completionQuiet_watchTube j
  refine .of_map ?_ (by rw [State.watchTube_frame]) hn
  rw [State.watchTube_frame]
  rfl

theorem State.judgePool_filing (s : State) (i : Nat) : s.FilingStep i s.judgePool := by
  refine .of_map ?_ (by rw [State.judgePool_frame]) (State.postsOnly_quiet s.judgePool_postsOnly (by decide))
  rw [State.judgePool_frame]
  rfl

theorem State.retire_filing (s : State) (i n : Nat) : s.FilingStep i (s.retire n) := by
  refine .of_map ?_ (by rw [State.retire_frame]) (State.postsOnly_quiet (s.retire_postsOnly n) (by decide))
  rw [State.retire_frame]
  rfl

theorem State.postPool_filing (s : State) (i : Nat) : s.FilingStep i (s.post .pool 0) :=
  .of_map rfl rfl fun _ hm hc => (NoticeUnit.post_enters hm).resolve_right fun h => absurd (hc.symm.trans h) (by decide)

theorem State.truncate_tube {s : State} {i : Nat} {t : Tube} (ht : s.tube i = some t) :
    (s.truncate i).tube i = some { t with truncated := true } := by
  unfold State.truncate
  rw [State.changeTube_tube, if_pos rfl, ht]
  rfl

theorem State.truncate_rest (s : State) (i : Nat) : (s.truncate i).store = s.store ∧ (s.truncate i).seats = s.seats := by
  unfold State.truncate
  rw [State.changeTube_frame]
  exact ⟨rfl, rfl⟩

/-! ## The judgement of the pool (R155) and a creation (R151) -/

/-- A judgement that finds the pool above its level, or the warning out, posts nothing. -/
theorem State.judgePool_silent {s : State} (h : ¬ (s.store.free.count ≤ s.map.params.poolLevel ∧ s.store.warnArmed = true)) :
    s.judgePool.notices = s.notices := by
  unfold State.judgePool
  dsimp only
  rw [if_neg (by simpa using h)]
  split <;> rfl

/-- The classes that a change of a tube's list can post. -/
def listNotices : List NoticeClass := [.blocked, .campaignComplete, .watch]

theorem State.changeTube_postsOnly (s : State) (i : Nat) (f : Tube → Tube) : s.postsOnly (s.changeTube i f) listNotices := by
  intro m hm
  rcases State.changeTube_enters hm with h | h | h | h
  · exact .inl h
  · exact .inr (by rw [h]; decide)
  · exact .inr (by rw [h]; decide)
  · exact .inr (by rw [h]; decide)

theorem State.watchTube_postsOnly (s : State) (i : Nat) : s.postsOnly (s.watchTube i) listNotices := by
  intro m hm
  unfold State.watchTube at hm
  split at hm
  · exact .inl hm
  · exact (State.postWatch_enters hm).imp_right fun h => by rw [h]; decide

theorem State.postsOnly_of_same {s u : State} {l : List NoticeClass} (h : u.notices = s.notices) : s.postsOnly u l :=
  fun _ hm => .inl (h ▸ hm)

/-- The pool with the head `n` of its free list filled for a measurement. -/
def Store.filled (st : Store) (n : Nat) (rest : FreeList) (m : Measurement) : Store :=
  { st.setSlot n { issue := ((st.slot n).issue + 1) % 256, content := some (newEntry m) } with free := rest }

/-- A creation before the judgement of the pool: the entry filled and in its place in the list. -/
def State.placed (s : State) (l : List Nat) (m : Measurement) (n : Nat) (rest : FreeList) : State :=
  State.setList { s with store := s.store.filled n rest m } m.tube
    (insertEntry (s.store.filled n rest m) n (newEntry m) l)

theorem State.create_eq {s : State} {n : Nat} {rest : FreeList} (h : s.store.free.take = some (n, rest)) (l : List Nat)
    (m : Measurement) : s.create l m = (s.placed l m n rest).judgePool.watchTube m.tube := by
  unfold State.create
  rw [h]
  rfl

theorem State.placed_filing (s : State) (l : List Nat) (m : Measurement) (n : Nat) (rest : FreeList) :
    s.FilingStep m.tube (s.placed l m n rest) :=
  (s.store_filing m.tube _).trans (State.setList_filing _ _ _)

theorem State.create_filing (s : State) (l : List Nat) (m : Measurement) : s.FilingStep m.tube (s.create l m) := by
  cases h : s.store.free.take with
  | none =>
    unfold State.create
    rw [h]
    exact .of_map rfl rfl fun _ hm _ => hm
  | some p =>
    rw [State.create_eq h l m]
    exact (s.placed_filing l m p.1 p.2).trans ((State.judgePool_filing _ _).trans (State.watchTube_filing _ _ _))

theorem FreeList.take_of_toList {f : FreeList} {n : Nat} {rest : List Nat} (h : f.toList = n :: rest) :
    ∃ g : FreeList, f.take = some (n, g) ∧ g.toList = rest := by
  cases ht : f.take with
  | none => rw [(FreeList.take_none f).mp ht] at h; exact absurd h nofun
  | some p =>
    obtain ⟨k, g⟩ := p
    obtain ⟨rfl, rfl⟩ := List.cons.inj ((FreeList.take_toList f k g ht).symm.trans h)
    exact ⟨g, rfl, rfl⟩

theorem FreeList.count_of_toList {f g : FreeList} {n : Nat} (h : f.toList = n :: g.toList) : f.count = g.count + 1 := by
  rw [FreeList.count_eq, FreeList.count_eq, h, List.length_cons]

/-- What a creation from a free list that is not empty does to the pool's warning and the notices. -/
structure State.CreationJudged (s u : State) (i : Nat) : Prop where
  watched : s.watched u i
  armed : u.store.warnArmed = decide (s.map.params.poolLevel < u.store.free.count)
  told : s.store.warnArmed = true → u.store.warnArmed = false → u.notices.told .pool 0
  count : s.store.free.count = u.store.free.count + 1
  silent : ¬ (u.store.free.count ≤ s.map.params.poolLevel ∧ s.store.warnArmed = true) → s.postsOnly u listNotices
  kept : ∀ P : NoticeUnit → Prop, KeptByPosts P → P s.notices → P u.notices

theorem State.create_judged {s : State} {n : Nat} {rest : List Nat} (hfree : s.store.free.toList = n :: rest)
    (l : List Nat) (m : Measurement) : s.CreationJudged (s.create l m) m.tube := by
  obtain ⟨g, htake, hg⟩ := FreeList.take_of_toList hfree
  have hplaced := s.placed_filing l m n g
  have hjudged := hplaced.trans (State.judgePool_filing _ m.tube)
  have hstore : (s.placed l m n g).store = s.store.filled n g m := State.setList_store _ _ _
  have hparams : (s.placed l m n g).map.params = s.map.params := by rw [hplaced.frame]
  have hfinal : (s.create l m).store = (s.placed l m n g).judgePool.store := by
    rw [State.create_eq htake, State.watchTube_frame]
  have hcount : (s.create l m).store.free = g := by
    rw [hfinal, State.judgePool_frame]
    exact congrArg Store.free hstore
  rw [State.create_eq htake] at hfinal hcount ⊢
  refine { watched := hjudged.watched (State.watchTube_watched _ _), armed := ?armed, told := fun ha hd => ?told,
           count := ?count, silent := fun h => ?silent, kept := fun P hP hn => ?kept }
  case armed =>
    rw [hcount, hfinal, State.judgePool_armed, hparams, hstore]
    rfl
  case told =>
    refine told_of_kept (fun _ hP hn => State.watchTube_notices hP _ _ hn) (State.judgePool_told _ ?_ (hfinal ▸ hd))
    rw [hstore]
    exact ha
  case count => rw [hcount]; exact FreeList.count_of_toList (hfree.trans (by rw [hg]))
  case silent =>
    rw [hcount] at h
    refine State.postsOnly_trans (State.postsOnly_trans (u := s.placed l m n g)
      (State.changeTube_postsOnly _ _ _)
      (State.postsOnly_of_same (State.judgePool_silent ?_))) (State.watchTube_postsOnly _ _)
    rw [hparams, hstore]
    exact h
  case kept =>
    exact State.watchTube_notices hP _ _ (State.judgePool_notices hP _ (State.changeTube_notices hP _ _ _ hn))

end Sys2Proof.Machine
end

section
/-! The order of filing (O52): match and merge, the empty pool, the full list. -/

namespace Sys2Proof.Machine

/-! ## Places in a list -/

theorem Entry.before_iff (a b : Entry) : a.before b = true ↔ a.measured.axial < b.measured.axial ∨
    (a.measured.axial = b.measured.axial ∧ a.freq.val < b.freq.val) := by
  unfold Entry.before
  simp

/-- The place of an entry depends on its measured fields and its frequency alone, its own old copy among the list. -/
theorem insertEntry_congr (st : Store) (n : Nat) {a b : Entry} (hm : a.measured = b.measured) (hf : a.freq = b.freq)
    (l : List Nat) : insertEntry (st.setEntry n a) n a l = insertEntry (st.setEntry n b) n b l := by
  have hleft : ∀ f : Entry, a.before f = b.before f := fun f => by unfold Entry.before; rw [hm, hf]
  have hright : b.before a = b.before b := by unfold Entry.before; rw [hm, hf]
  induction l with
  | nil => rfl
  | cons k t ih =>
    unfold insertEntry
    rw [Store.entry_setEntry, Store.entry_setEntry, ih]
    by_cases hk : n = k
    · rw [if_pos hk, if_pos hk]
      dsimp only
      rw [hleft a, hright]
    · rw [if_neg hk, if_neg hk]
      cases st.entry k with
      | none => rfl
      | some f => dsimp only; rw [hleft f]

/-! ## The match (R147) -/

theorem matchEntry_some {st : Store} {w : Nat} {l : List Nat} {m : Measurement} {n : Nat} {e : Entry}
    (h : matchEntry st w l m = some (n, e)) : n ∈ l ∧ st.entry n = some e := by
  unfold matchEntry at h
  split at h
  · exact absurd h nofun
  · next x hx =>
    split at h
    · obtain rfl := Option.some.inj h
      exact (Store.mem_listed st l _).mp (nearestEntry_mem m _ _ hx).1
    · exact absurd h nofun

theorem matchEntry_none {st : Store} {w : Nat} {l : List Nat} {m : Measurement}
    (h : ∀ j ∈ l, ∀ f, st.entry j = some f → f.freq = m.freq → w < apart f.measured.axial m.measured.axial) :
    matchEntry st w l m = none := by
  unfold matchEntry
  split
  · rfl
  · next x hx =>
    obtain ⟨hx, hfreq⟩ := nearestEntry_mem m _ _ hx
    obtain ⟨hl, he⟩ := (Store.mem_listed st l x).mp hx
    exact if_neg (Nat.not_le_of_lt (h x.1 hl x.2 he hfreq))

/-- The entry that is nearer than every other of its frequency, and within the window, is the match. -/
theorem matchEntry_eq {st : Store} {w : Nat} {l : List Nat} {m : Measurement} {n : Nat} {e : Entry}
    (hp : (st.listed l).Pairwise (fun a b => a.2.measured.axial ≤ b.2.measured.axial)) (hn : n ∈ l)
    (he : st.entry n = some e) (hf : e.freq = m.freq) (hw : apart e.measured.axial m.measured.axial ≤ w)
    (hnear : ∀ j ∈ l, ∀ f, st.entry j = some f → f.freq = m.freq → j ≠ n →
      apart e.measured.axial m.measured.axial < apart f.measured.axial m.measured.axial ∨
      (apart e.measured.axial m.measured.axial = apart f.measured.axial m.measured.axial ∧
        e.measured.axial < f.measured.axial)) : matchEntry st w l m = some (n, e) := by
  have hbest : nearestEntry m (st.listed l) = some (n, e) := by
    refine nearestEntry_eq m (n, e) hf _ ((Store.mem_listed st l _).mpr ⟨hn, he⟩) hp fun y hy hyf hne => ?_
    obtain ⟨hyl, hye⟩ := (Store.mem_listed st l y).mp hy
    refine hnear y.1 hyl y.2 hye hyf fun hyn => hne ?_
    have : y.2 = e := Option.some.inj (hye.symm.trans (hyn ▸ he))
    rw [← hyn, ← this]
  unfold matchEntry
  rw [hbest]
  exact if_pos hw

/-! ## The merge (R148 to R150) -/

/-- An entry with one sighting more and the measured fields of a stronger measurement. -/
def Entry.remeasured (e : Entry) (m : Measurement) : Entry :=
  { e with sightings := min (e.sightings + 1) 15, measured := m.measured }

/-- The list of a tube with the remeasured entry at its place. -/
def State.relisted (s : State) (t : Tube) (m : Measurement) (n : Nat) (e : Entry) : List Nat :=
  if e.measured.axial = m.measured.axial then t.entries
  else insertEntry (s.store.setEntry n (e.remeasured m)) n (e.remeasured m) (t.entries.erase n)

/-- A merge with a stronger measurement, before the reopening. -/
def State.remeasured (s : State) (t : Tube) (m : Measurement) (n : Nat) (e : Entry) : State :=
  if e.measured.axial = m.measured.axial then { s with store := s.store.setEntry n (e.remeasured m) }
  else State.setList { s with store := s.store.setEntry n (e.remeasured m) } m.tube (s.relisted t m n e)

theorem State.remeasured_filing (s : State) (t : Tube) (m : Measurement) (n : Nat) (e : Entry) :
    s.FilingStep m.tube (s.remeasured t m n e) := by
  unfold State.remeasured
  split
  · exact s.store_filing _ _
  · exact (s.store_filing _ _).trans (State.setList_filing _ _ _)

theorem State.remeasured_store (s : State) (t : Tube) (m : Measurement) (n : Nat) (e : Entry) :
    (s.remeasured t m n e).store = s.store.setEntry n (e.remeasured m) := by
  unfold State.remeasured
  split
  · rfl
  · exact State.setList_store _ _ _

theorem State.remeasured_tube {s : State} {t : Tube} {m : Measurement} (ht : s.tube m.tube = some t) (n : Nat) (e : Entry) :
    (s.remeasured t m n e).tube m.tube = some { t with entries := s.relisted t m n e } := by
  unfold State.remeasured
  split
  · next h =>
    unfold State.relisted
    rw [if_pos h]
    exact ht
  · exact State.setList_tube _ _ _ t ht

theorem State.merge_weaker {s : State} {t : Tube} {m : Measurement} {n : Nat} {e : Entry}
    (h : m.measured.amplitude ≤ e.measured.amplitude) : s.merge t m n e =
      { s with store := s.store.setEntry n { e with sightings := min (e.sightings + 1) 15 } } := by
  unfold State.merge
  exact if_neg (Nat.not_lt_of_le h)

theorem State.merge_stronger {s : State} {t : Tube} {m : Measurement} {n : Nat} {e : Entry}
    (h : e.measured.amplitude < m.measured.amplitude) : s.merge t m n e =
      if e.grown s.map.params.growth m.measured.depth then
        (s.remeasured t m n e).changeStatus n (e.remeasured m).reopened
      else s.remeasured t m n e := by
  unfold State.merge State.remeasured State.relisted
  by_cases hax : e.measured.axial = m.measured.axial
  · simp only [if_pos h, if_pos hax]; rfl
  · simp only [if_pos h, if_neg hax]; rfl

theorem Entry.grown_iff (e : Entry) (growth depth : Nat) : e.grown growth depth = true ↔
    (e.status = .final ∧ ∃ d, e.outcome = some (.depth d) ∧ d + growth ≤ depth) ∨
      (e.status = .dismissed ∧ ∃ r, e.reference = some r ∧ r + growth ≤ depth) := by
  unfold Entry.grown
  split
  · next d hs ho =>
    rw [hs, ho]
    constructor
    · exact fun h => .inl ⟨rfl, d, rfl, of_decide_eq_true h⟩
    · rintro (⟨-, x, hx, hle⟩ | ⟨hne, -⟩)
      · cases hx; exact decide_eq_true hle
      · exact absurd hne nofun
  · next r hs hr =>
    rw [hs, hr]
    constructor
    · exact fun h => .inr ⟨rfl, r, rfl, of_decide_eq_true h⟩
    · rintro (⟨hne, -⟩ | ⟨-, x, hx, hle⟩)
      · exact absurd hne nofun
      · cases hx; exact decide_eq_true hle
  · next hfinal hdismissed =>
    refine ⟨fun h => absurd h nofun, ?_⟩
    rintro (⟨hs, d, hd, -⟩ | ⟨hs, r, hr, -⟩)
    · exact absurd hd (hfinal d hs)
    · exact absurd hr (hdismissed r hs)

/-- The entry a stronger measurement leaves: remeasured, and reopened where it has grown. -/
def Entry.held (e : Entry) (growth : Nat) (m : Measurement) : Entry :=
  if e.grown growth m.measured.depth then (e.remeasured m).reopened else e.remeasured m

theorem Entry.held_place (e : Entry) (growth : Nat) (m : Measurement) :
    (e.held growth m).measured = (e.remeasured m).measured ∧ (e.held growth m).freq = (e.remeasured m).freq := by
  unfold Entry.held
  split <;> exact ⟨rfl, rfl⟩

theorem State.merge_store {s : State} {t : Tube} {m : Measurement} {n : Nat} {e : Entry}
    (h : e.measured.amplitude < m.measured.amplitude) :
    (s.merge t m n e).store = s.store.setEntry n (e.held s.map.params.growth m) := by
  rw [State.merge_stronger h]
  unfold Entry.held
  split
  · rw [(State.changeStatus_store _ _ _).1, State.remeasured_store, Store.setEntry_setEntry]
  · exact State.remeasured_store _ _ _ _ _

/-- The place of a remeasured entry in its list, read in the pool the merge leaves. -/
theorem State.relisted_split {s : State} {t : Tube} {m : Measurement} {n : Nat} {e : Entry}
    (h : e.measured.axial ≠ m.measured.axial) : ∃ l1 l2 : List Nat,
      s.relisted t m n e = l1 ++ n :: l2 ∧ t.entries.erase n = l1 ++ l2 ∧
      (∀ j ∈ l1, ∀ f, (s.store.setEntry n (e.held s.map.params.growth m)).entry j = some f →
        (e.held s.map.params.growth m).before f = false) ∧
      ∀ j, l2.head? = some j → ∃ f, (s.store.setEntry n (e.held s.map.params.growth m)).entry j = some f ∧
        (e.held s.map.params.growth m).before f = true := by
  obtain ⟨hm, hf⟩ := e.held_place s.map.params.growth m
  unfold State.relisted
  rw [if_neg h, insertEntry_congr s.store n hm.symm hf.symm]
  exact insertEntry_split _ _ _ _

/-- A grown entry is watched, and its tube evaluated with the list it then has. -/
theorem State.merge_grown {s : State} {t : Tube} {m : Measurement} {n : Nat} {e : Entry} (ht : s.tube m.tube = some t)
    (he : e.tube = m.tube) (h : e.measured.amplitude < m.measured.amplitude)
    (hg : e.grown s.map.params.growth m.measured.depth = true) :
    s.watched (s.merge t m n e) m.tube ∧ (s.merge t m n e).tube m.tube = some
      (Tube.evaluated { t with entries := s.relisted t m n e } s.map.params.plugLimit (s.merge t m n e).store) := by
  have hstep := s.remeasured_filing t m n e
  rw [State.merge_stronger h, if_pos hg]
  have hwatched := (s.remeasured t m n e).changeStatus_watched n (e.remeasured m).reopened
  obtain ⟨⟨hown, -, -, -⟩, -⟩ := (s.remeasured t m n e).changeStatus_evaluates n (e.remeasured m).reopened
  rw [show (e.remeasured m).reopened.tube = m.tube from he] at hwatched hown
  refine ⟨hstep.watched hwatched, (hown _ (State.remeasured_tube ht n e)).trans ?_⟩
  rw [show (s.remeasured t m n e).map.params = s.map.params by rw [hstep.frame]]

/-! ## The full list (R152) -/

/-- A replacement before its creation: the shallowest entry has left the list and is retired. -/
def State.relieved (s : State) (t : Tube) (i n : Nat) : State :=
  (((s.setList i (t.entries.erase n)).retire n)).watchTube i

theorem State.relieved_filing (s : State) (t : Tube) (i n : Nat) : s.FilingStep i (s.relieved t i n) :=
  (s.setList_filing i _).trans ((State.retire_filing _ i n).trans (State.watchTube_filing _ i i))

theorem State.listFull_deep {s : State} {t : Tube} {m : Measurement} {n : Nat} {e : Entry}
    (h : shallowestNew (s.store.listed t.entries) = some (n, e)) (hd : e.measured.depth < m.measured.depth) :
    s.listFull t m = ((s.relieved t m.tube n).create (t.entries.erase n) m).truncate m.tube := by
  unfold State.listFull
  rw [h]
  exact if_pos hd

theorem State.listFull_shallow {s : State} {t : Tube} {m : Measurement}
    (h : ∀ n e, shallowestNew (s.store.listed t.entries) = some (n, e) → m.measured.depth ≤ e.measured.depth) :
    s.listFull t m = s.truncate m.tube := by
  unfold State.listFull
  split
  · rfl
  · next n e he => exact if_neg (Nat.not_lt_of_le (h n e he))

theorem State.listFull_filing (s : State) (t : Tube) (m : Measurement) : s.FilingStep m.tube (s.listFull t m) := by
  by_cases h : ∃ n e, shallowestNew (s.store.listed t.entries) = some (n, e) ∧ e.measured.depth < m.measured.depth
  · obtain ⟨n, e, hn, hd⟩ := h
    rw [State.listFull_deep hn hd]
    exact (s.relieved_filing t m.tube n).trans ((State.create_filing _ _ m).trans (State.truncate_filing _ _))
  · rw [State.listFull_shallow fun n e hn => Nat.le_of_not_lt fun hd => h ⟨n, e, hn, hd⟩]
    exact s.truncate_filing m.tube

theorem State.retire_seats {s : State} {n : Nat} {e : Entry} (he : s.store.entry n = some e) (hh : e.holder = none) :
    (s.retire n).seats = s.seats := by
  unfold State.retire
  rw [he]
  dsimp only
  rw [hh]
  dsimp only
  rw [State.recycle_frame]

theorem State.retire_silent {s : State} {n : Nat}
    (h : ¬ (s.store.free.count + 1 ≤ s.map.params.poolLevel ∧ s.store.warnArmed = true)) :
    s.postsOnly (s.retire n) [] := by
  cases hn : s.store.entry n with
  | none => rw [State.retire_unused hn]; exact fun _ => .inl
  | some e =>
    obtain ⟨v, hv⟩ := State.retire_used hn
    rw [hv]
    refine State.postsOnly_of_same (State.judgePool_silent fun hc => h ⟨?_, hc.2⟩)
    have hcount : (s.store.free.put n).count = s.store.free.count + 1 := by
      rw [FreeList.count_eq, FreeList.put_toList, List.length_append, FreeList.count_eq]; rfl
    exact hcount ▸ hc.1

/-- What the place left by the shallowest entry `n` shows: the pool with `n` at its tail, the warning judged once. -/
structure State.Relieved (s u : State) (n : Nat) : Prop where
  free : u.store.free.toList = s.store.free.toList ++ [n]
  slot : ∀ k, u.store.slot k = if n = k then { issue := (s.store.slot n).issue, content := none } else s.store.slot k
  seats : u.seats = s.seats
  armed : u.store.warnArmed = decide (s.map.params.poolLevel < s.store.free.count + 1)
  told : s.store.warnArmed = true → u.store.warnArmed = false → u.notices.told .pool 0
  silent : ¬ (s.store.free.count + 1 ≤ s.map.params.poolLevel ∧ s.store.warnArmed = true) →
    s.postsOnly u listNotices

theorem State.relieved_spec {s : State} {n : Nat} {e : Entry} (he : s.store.entry n = some e) (hh : e.holder = none)
    (t : Tube) (i : Nat) : s.Relieved (s.relieved t i n) n := by
  have hstep := s.setList_filing i (t.entries.erase n)
  have hstore := s.setList_store i (t.entries.erase n)
  have hseats : (s.setList i (t.entries.erase n)).seats = s.seats := by
    unfold State.setList; rw [State.changeTube_frame]
  have hparams : (s.setList i (t.entries.erase n)).map.params = s.map.params := by rw [hstep.frame]
  have hposts : s.postsOnly (s.setList i (t.entries.erase n)) listNotices := State.changeTube_postsOnly _ _ _
  unfold State.relieved
  generalize s.setList i (t.entries.erase n) = v at hstore hseats hparams hposts ⊢
  have hve : v.store.entry n = some e := hstore ▸ he
  obtain ⟨hslot, hfree⟩ := v.retire_store n e hve
  obtain ⟨-, harmed, htold⟩ := State.retire_warning hve
  have hlast : ((v.retire n).watchTube i).store = (v.retire n).store ∧
      ((v.retire n).watchTube i).seats = (v.retire n).seats := by rw [State.watchTube_frame]; exact ⟨rfl, rfl⟩
  have hcount : (v.retire n).store.free.count = s.store.free.count + 1 := by
    rw [FreeList.count_eq, hfree, hstore, List.length_append, FreeList.count_eq]; rfl
  refine { free := ?free, slot := fun k => ?slot, seats := ?seats, armed := ?armed, told := fun ha hd => ?told,
           silent := fun h => ?silent }
  case free => rw [hlast.1, hfree, hstore]
  case slot => rw [hlast.1, hslot, hstore]
  case seats => rw [hlast.2, State.retire_seats hve hh, hseats]
  case armed => rw [hlast.1, harmed, hparams, hcount]
  case told =>
    exact told_of_kept (fun _ hP hn => State.watchTube_notices hP _ _ hn) (htold (hstore ▸ ha) (hlast.1 ▸ hd))
  case silent =>
    have hretire : v.postsOnly (v.retire n) [] := State.retire_silent (by rw [hstore, hparams]; exact h)
    refine State.postsOnly_trans (State.postsOnly_trans hposts fun m hm => ?_) (State.watchTube_postsOnly _ _)
    exact (hretire m hm).imp_right fun h => absurd h List.not_mem_nil

/-! ## The whole filing -/

theorem State.fileMeasurement_of {s : State} {m : Measurement} {t : Tube} (ht : s.tube m.tube = some t) :
    (∀ n e, matchEntry s.store s.map.params.mergeWindow t.entries m = some (n, e) →
      s.fileMeasurement m = s.merge t m n e) ∧
    (matchEntry s.store s.map.params.mergeWindow t.entries m = none →
      (12 ≤ t.entries.length → s.fileMeasurement m = s.listFull t m) ∧
      (t.entries.length < 12 →
        (s.store.free.toList = [] → s.fileMeasurement m = (s.truncate m.tube).post .pool 0) ∧
        (s.store.free.toList ≠ [] → s.fileMeasurement m = s.create t.entries m))) := by
  have hcount : s.store.free.count = 0 ↔ s.store.free.toList = [] := by
    rw [FreeList.count_eq, List.length_eq_zero_iff]
  unfold State.fileMeasurement
  rw [ht]
  dsimp only
  refine ⟨fun n e h => by rw [h], fun h => ?_⟩
  rw [h]
  dsimp only
  refine ⟨fun hl => if_pos hl, fun hl => ?_⟩
  rw [if_neg (show ¬ Config.listLimit ≤ t.entries.length from Nat.not_le_of_lt hl)]
  exact ⟨fun he => if_pos (hcount.mpr he), fun he => if_neg fun h0 => he (hcount.mp h0)⟩

/-- A filing is a filing step, or one with the reopening of an entry of the tube's list behind it. -/
theorem State.fileMeasurement_step {s : State} {m : Measurement} {t : Tube} (ht : s.tube m.tube = some t) :
    s.FilingStep m.tube (s.fileMeasurement m) ∨
    ∃ r n e, s.FilingStep m.tube r ∧ n ∈ t.entries ∧ s.store.entry n = some e ∧
      s.fileMeasurement m = r.changeStatus n (e.remeasured m).reopened := by
  obtain ⟨hmatch, hnone⟩ := State.fileMeasurement_of ht
  cases hm : matchEntry s.store s.map.params.mergeWindow t.entries m with
  | some x =>
    obtain ⟨n, e⟩ := x
    obtain ⟨hn, he⟩ := matchEntry_some hm
    rw [hmatch n e hm]
    by_cases ha : e.measured.amplitude < m.measured.amplitude
    · rw [State.merge_stronger ha]
      split
      · exact .inr ⟨_, n, e, s.remeasured_filing t m n e, hn, he, rfl⟩
      · exact .inl (s.remeasured_filing t m n e)
    · rw [State.merge_weaker (Nat.le_of_not_lt ha)]
      exact .inl (s.store_filing _ _)
  | none =>
    obtain ⟨hfull, hroom⟩ := hnone hm
    by_cases hl : 12 ≤ t.entries.length
    · rw [hfull hl]
      exact .inl (s.listFull_filing t m)
    · obtain ⟨hempty, hcreate⟩ := hroom (Nat.lt_of_not_le hl)
      by_cases hf : s.store.free.toList = []
      · rw [hempty hf]
        exact .inl ((s.truncate_filing m.tube).trans (State.postPool_filing _ _))
      · rw [hcreate hf]
        exact .inl (s.create_filing t.entries m)

theorem State.fileMeasurement_frame {s : State} {m : Measurement} {t : Tube} (ht : s.tube m.tube = some t) :
    s.reviewsOnly (s.fileMeasurement m) ∧ (s.censusTrue → s.completes (s.fileMeasurement m)) ∧
    ∀ j, j ≠ m.tube → (∀ n ∈ t.entries, ∀ e, s.store.entry n = some e → e.tube ≠ j) →
      (s.fileMeasurement m).tube j = s.tube j := by
  rcases State.fileMeasurement_step ht with hstep | ⟨r, n, e, hstep, hn, he, heq⟩
  · exact ⟨hstep.frame, hstep.completes, fun j hj _ => hstep.other j hj⟩
  · rw [heq]
    obtain ⟨⟨-, hother, -, -⟩, -⟩ := r.changeStatus_evaluates n (e.remeasured m).reopened
    refine ⟨hstep.frame.trans (State.changeStatus_reviewsOnly _ _ _),
      fun hc => hstep.completes_of hc (State.changeStatus_completes _ _ _), fun j hj hne => ?_⟩
    exact (hother j (hne n hn e he).symm).trans (hstep.other j hj)

/-- A creation in a list with room (R151, R155). -/
theorem State.fileMeasurement_creates {s : State} {m : Measurement} {t : Tube} (ht : s.tube m.tube = some t) {n : Nat}
    {rest : List Nat} (hfree : s.store.free.toList = n :: rest) (hu : s.fileMeasurement m = s.create t.entries m) :
    ∃ l1 l2 : List Nat,
      (s.fileMeasurement m).store.free.toList = rest ∧ s.watched (s.fileMeasurement m) m.tube ∧
      (s.fileMeasurement m).store.warnArmed =
        decide (s.map.params.poolLevel < (s.fileMeasurement m).store.free.count) ∧
      (s.store.warnArmed = true → (s.fileMeasurement m).store.warnArmed = false →
        (s.fileMeasurement m).notices.told .pool 0) ∧
      (s.fileMeasurement m).store.slot n =
        { issue := ((s.store.slot n).issue + 1) % 256, content := some (newEntry m) } ∧
      (∀ j, j ≠ n → (s.fileMeasurement m).store.slot j = s.store.slot j) ∧ (s.fileMeasurement m).seats = s.seats ∧
      t.entries = l1 ++ l2 ∧
      (∀ j ∈ l1, ∀ f, (s.fileMeasurement m).store.entry j = some f → (newEntry m).before f = false) ∧
      (∀ j, l2.head? = some j → ∃ f, (s.fileMeasurement m).store.entry j = some f ∧ (newEntry m).before f = true) ∧
      (s.fileMeasurement m).tube m.tube = some { t with entries := l1 ++ n :: l2 } := by
  rw [hu]
  have hjudged := State.create_judged hfree t.entries m
  obtain ⟨l1, l2, hl, hrest, hslot, hslots, hseats, hbefore, hafter, htube, -⟩ :=
    s.create_spec t.entries m t ht n rest hfree
  exact ⟨l1, l2, hrest, hjudged.watched, hjudged.armed, hjudged.told, hslot, hslots, hseats, hl, hbefore, hafter, htube⟩

end Sys2Proof.Machine
end

section
/-! The replacement in a full list (R152), and the settlement of O52. -/

namespace Sys2Proof.Machine

/-- What a replacement leaves (R152, R155): `n` retired, then `k` filled in its place in the list. -/
structure State.Replaced (s u : State) (m : Measurement) (t : Tube) (n k : Nat) (rest l : List Nat) : Prop where
  free : u.store.free.toList = rest
  watched : s.watched u m.tube
  armed : u.store.warnArmed = decide (s.map.params.poolLevel < u.store.free.count)
  told : s.store.warnArmed = true → u.store.warnArmed = false → u.notices.told .pool 0
  toldAt : s.store.free.count = s.map.params.poolLevel → u.notices.told .pool 0
  silent : s.store.free.count ≠ s.map.params.poolLevel → ¬ (s.store.warnArmed = true ∧ u.store.warnArmed = false) →
    ∀ x ∈ u.notices.pending, x.cls = .pool → x ∈ s.notices.pending
  filled : u.store.slot k = { issue := ((s.store.slot k).issue + 1) % 256, content := some (newEntry m) }
  retired : k ≠ n → u.store.slot n = { issue := (s.store.slot n).issue, content := none }
  kept : ∀ j, j ≠ n → j ≠ k → u.store.slot j = s.store.slot j
  seats : u.seats = s.seats
  list : ∃ l1 l2 : List Nat, l = l1 ++ l2 ∧
    (∀ j ∈ l1, ∀ f, u.store.entry j = some f → (newEntry m).before f = false) ∧
    (∀ j, l2.head? = some j → ∃ f, u.store.entry j = some f ∧ (newEntry m).before f = true) ∧
    u.tube m.tube = some { t with entries := l1 ++ k :: l2, truncated := true }

theorem State.replaced {s : State} {m : Measurement} {t : Tube} (ht : s.tube m.tube = some t) {n : Nat} {e : Entry}
    (he : s.store.entry n = some e) (hh : e.holder = none) {k : Nat} {rest : List Nat}
    (hfree : s.store.free.toList ++ [n] = k :: rest) :
    s.Replaced (((s.relieved t m.tube n).create (t.entries.erase n) m).truncate m.tube) m t n k rest
      (t.entries.erase n) := by
  have hrelieved := State.relieved_spec he hh t m.tube
  have hstep := s.relieved_filing t m.tube n
  have hvt : (s.relieved t m.tube n).tube m.tube = some { t with entries := t.entries.erase n } := by
    unfold State.relieved State.tube
    rw [State.watchTube_frame, State.retire_frame]
    exact s.setList_tube m.tube _ t ht
  generalize s.relieved t m.tube n = v at hrelieved hstep hvt ⊢
  have hvfree : v.store.free.toList = k :: rest := hrelieved.free.trans hfree
  have hjudged := State.create_judged hvfree (t.entries.erase n) m
  obtain ⟨l1, l2, hl, hrest, hslot, hslots, hseats, hbefore, hafter, htube, -⟩ :=
    v.create_spec (t.entries.erase n) m _ hvt k rest hvfree
  generalize v.create (t.entries.erase n) m = w at *
  obtain ⟨hustore, huseats⟩ := w.truncate_rest m.tube
  have hkept : ∀ P : NoticeUnit → Prop, KeptByPosts P → P w.notices → P (w.truncate m.tube).notices :=
    fun P hP hn => State.changeTube_notices hP _ _ _ hn
  have hparams : v.map.params = s.map.params := by rw [hstep.frame]
  have hcount : s.store.free.count = w.store.free.count := by
    have hv : v.store.free.count = s.store.free.count + 1 := by
      rw [FreeList.count_eq, hrelieved.free, List.length_append, FreeList.count_eq]; rfl
    have := hjudged.count
    omega
  have harmed : w.store.warnArmed = decide (s.map.params.poolLevel < s.store.free.count) := by
    rw [hjudged.armed, hparams, hcount]
  have htoldAt : s.store.free.count = s.map.params.poolLevel → w.notices.told .pool 0 := fun h =>
    hjudged.told (hrelieved.armed.trans (decide_eq_true (by omega))) (harmed.trans (decide_eq_false (by omega)))
  refine { free := by rw [hustore, hrest], watched := ?watched, armed := ?armed, told := fun ha hd => ?told,
           toldAt := fun h => told_of_kept hkept (htoldAt h), silent := fun hne hno => ?silent,
           filled := ?filled, retired := fun hk => ?retired, kept := fun j hjn hjk => ?kept,
           seats := by rw [huseats, hseats, hrelieved.seats], list := ⟨l1, l2, hl, ?before, ?after, ?tube⟩ }
  case watched => exact hstep.watched (State.watched_later hjudged.watched hkept)
  case armed => rw [hustore, harmed, hcount]
  case told =>
    rw [hustore, harmed, decide_eq_false_iff_not] at hd
    by_cases hat : s.store.free.count = s.map.params.poolLevel
    · exact told_of_kept hkept (htoldAt hat)
    · have hv : v.store.warnArmed = false := hrelieved.armed.trans (decide_eq_false (by omega))
      exact told_of_kept hkept (told_of_kept hjudged.kept (hrelieved.told ha hv))
  case silent =>
    have hlate : ¬ (w.store.free.count ≤ v.map.params.poolLevel ∧ v.store.warnArmed = true) := by
      rintro ⟨hle, hva⟩
      rw [hrelieved.armed, decide_eq_true_eq] at hva
      rw [hparams] at hle
      omega
    have hearly : ¬ (s.store.free.count + 1 ≤ s.map.params.poolLevel ∧ s.store.warnArmed = true) := by
      rintro ⟨hle, ha⟩
      exact hno ⟨ha, by rw [hustore, harmed]; exact decide_eq_false (by omega)⟩
    exact State.postsOnly_quiet (State.postsOnly_trans (State.postsOnly_trans (hrelieved.silent hearly)
      (hjudged.silent hlate)) (State.changeTube_postsOnly _ _ _)) (by decide)
  case filled =>
    rw [hustore, hslot, hrelieved.slot]
    by_cases hnk : n = k
    · rw [if_pos hnk, hnk]
    · rw [if_neg hnk]
  case retired => rw [hustore, hslots n (Ne.symm hk), hrelieved.slot, if_pos rfl]
  case kept => rw [hustore, hslots j hjk, hrelieved.slot, if_neg (Ne.symm hjn)]
  case before => rw [hustore]; exact hbefore
  case after => rw [hustore]; exact hafter
  case tube => rw [State.truncate_tube htube]

theorem erase_at_middle {a b : List Nat} {n : Nat} (h : (a ++ n :: b).Nodup) : (a ++ n :: b).erase n = a ++ b := by
  have hn : n ∉ a := fun hmem => (List.nodup_append.mp h).2.2 n hmem n List.mem_cons_self rfl
  rw [List.erase_append_right _ hn, List.erase_cons_head]

/-- The first NEW entry of smallest depth, by the list as numbers. -/
theorem shallowestNew_listed {st : Store} {a b : List Nat} {n : Nat} {e : Entry} (he : st.entry n = some e)
    (hs : e.status = .new)
    (ha : ∀ j ∈ a, ∀ f, st.entry j = some f → f.status = .new → e.measured.depth < f.measured.depth)
    (hb : ∀ j ∈ b, ∀ f, st.entry j = some f → f.status = .new → e.measured.depth ≤ f.measured.depth) :
    shallowestNew (st.listed (a ++ n :: b)) = some (n, e) := by
  have hl : st.listed (a ++ n :: b) = st.listed a ++ (n, e) :: st.listed b := by
    unfold Store.listed
    rw [List.filterMap_append, List.filterMap_cons_some (b := (n, e)) (by rw [he]; rfl)]
  rw [hl]
  refine shallowestNew_eq (n, e) hs _ (fun y hy hn => ?_) _ fun y hy hn => ?_
  · obtain ⟨hm, hye⟩ := (Store.mem_listed st b y).mp hy
    exact hb y.1 hm y.2 hye hn
  · obtain ⟨hm, hye⟩ := (Store.mem_listed st a y).mp hy
    exact ha y.1 hm y.2 hye hn

/-- Settles O52, by the match and the four ways of a filing. -/
theorem filingRules : Obligations.FilingRules := by
  unfold Obligations.FilingRules
  refine ⟨Entry.before_iff, fun s u m t ht hu => ?_⟩
  subst hu
  obtain ⟨hframe, hcompletes, hother⟩ := State.fileMeasurement_frame ht
  obtain ⟨hmatch, hnone⟩ := State.fileMeasurement_of ht
  refine ⟨hother, hframe, hcompletes, fun n e hsorted hn he htube hfreq hwindow hnear => ?merge, fun hfar made hmade => ?_⟩
  case merge =>
    rw [hmatch n e (matchEntry_eq hsorted hn he hfreq hwindow hnear)]
    refine ⟨State.merge_weaker, fun hstrong => ?_⟩
    have hstore := State.merge_store (t := t) (n := n) hstrong (s := s)
    obtain ⟨l1, l2, hl⟩ : ∃ l1 l2 : List Nat, e.measured.axial ≠ m.measured.axial →
        s.relisted t m n e = l1 ++ n :: l2 ∧ t.entries.erase n = l1 ++ l2 ∧
        (∀ j ∈ l1, ∀ f, (s.merge t m n e).store.entry j = some f → (e.held s.map.params.growth m).before f = false) ∧
        ∀ j, l2.head? = some j → ∃ f, (s.merge t m n e).store.entry j = some f ∧
          (e.held s.map.params.growth m).before f = true := by
      by_cases hax : e.measured.axial = m.measured.axial
      · exact ⟨[], [], fun h => absurd hax h⟩
      · rw [hstore]
        obtain ⟨l1, l2, h⟩ := State.relisted_split (s := s) (t := t) (n := n) hax
        exact ⟨l1, l2, fun _ => h⟩
    refine ⟨e.held s.map.params.growth m, s.relisted t m n e, l1, l2,
      e.grown s.map.params.growth m.measured.depth = true, e.grown_iff _ _, fun hg => if_neg hg, fun hg => if_pos hg,
      hstore, fun hg => (State.merge_grown ht htube hstrong hg).1, fun hax => if_pos hax, hl, fun hg => ?_,
      fun hg => (State.merge_grown ht htube hstrong hg).2⟩
    rw [State.merge_stronger hstrong, if_neg hg]
    exact State.remeasured_tube ht n e
  subst hmade
  obtain ⟨hfull, hroom⟩ := hnone (matchEntry_none hfar)
  refine ⟨fun hl => ⟨fun hempty => ?_, fun n rest hfree => ?_⟩, fun hl => ⟨fun hdeep => ?_,
    fun n e a b hsplit hnd he hnew hh hd ha hb => ?_⟩⟩
  · obtain ⟨hstore, -⟩ := s.truncate_rest m.tube
    rw [(hroom hl).1 hempty]
    exact ⟨State.truncate_tube ht, hstore, NoticeUnit.post_told _ _ _⟩
  · exact State.fileMeasurement_creates ht hfree ((hroom hl).2 (by rw [hfree]; exact List.cons_ne_nil _ _))
  · obtain ⟨hstore, hseats⟩ := s.truncate_rest m.tube
    rw [hfull hl, State.listFull_shallow fun n e hn => ?_]
    · exact ⟨State.truncate_tube ht, hstore, hseats⟩
    · obtain ⟨hmem, hnew⟩ := shallowestNew_mem _ _ hn
      obtain ⟨hin, he⟩ := (Store.mem_listed _ _ _).mp hmem
      exact hdeep n hin e he hnew
  · obtain ⟨k, rest, hfree⟩ := List.exists_cons_of_ne_nil (List.append_ne_nil_of_right_ne_nil s.store.free.toList
      (List.cons_ne_nil n []))
    have hr := State.replaced ht he hh hfree
    rw [hfull hl, State.listFull_deep (hsplit ▸ shallowestNew_listed he hnew ha hb) hd]
    obtain ⟨l1, l2, hlist, hbefore, hafter, htube⟩ := hr.list
    rw [hsplit, erase_at_middle (hsplit ▸ hnd)] at hlist
    exact ⟨k, rest, l1, l2, hfree, hr.free, hr.watched, hr.armed, hr.told, hr.toldAt, hr.silent, hr.filled, hr.retired,
      hr.kept, hr.seats, hlist, hbefore, hafter, htube⟩

end Sys2Proof.Machine
end

section
/-! The selection walker (chapter 4): the choice, the tests at a position, the claim request (O53). -/

namespace Sys2Proof.Machine

/-! ## The events -/

theorem exec_walkerChoice {s : State} (h : s.held = false) : exec .walkerChoice s = .next s.walkerChoice :=
  congrArg Host.Outcome.next (State.whenRunning_running h _)

theorem exec_walkerExamine {s : State} (h : s.held = false) : exec .walkerExamine s = .next s.walkerExamine :=
  congrArg Host.Outcome.next (State.whenRunning_running h _)

theorem exec_claimRequest {s : State} (h : s.held = false) : exec .claimRequest s = .next s.claimRequest :=
  congrArg Host.Outcome.next (State.whenRunning_running h _)

/-! ## The choice (R66) -/

/-- Channel `b` goes before channel `m`: a higher level, or the same and a lower number. -/
def State.outranks (s : State) (b m : Fin 8) : Prop :=
  (s.chan m).config.priority < (s.chan b).config.priority ∨
    ((s.chan m).config.priority = (s.chan b).config.priority ∧ b < m)

theorem State.chooses_first {s : State} {a : Fin 8} (h : s.walker.waiting.get a = true) : s.chooses none a = some a :=
  if_pos h

theorem State.chooses_next {s : State} {a : Fin 8} (h : s.walker.waiting.get a = true) (b : Fin 8) :
    s.chooses (some b) a = if (s.chan b).config.priority < (s.chan a).config.priority then some a else some b :=
  if_pos h

theorem State.outranks_of_priority {s : State} {a b m : Fin 8} (h : (s.chan b).config.priority < (s.chan a).config.priority)
    (hb : b = m ∨ s.outranks b m) : s.outranks a m := by
  rcases hb with rfl | hlt | ⟨heq, -⟩
  · exact .inl h
  · exact .inl (hlt.trans h)
  · exact .inl (heq ▸ h)

/-- A choice among channels of ascending numbers waits, and outranks every other that waits. -/
theorem State.chooses_spec (s : State) (l : List (Fin 8)) (hl : l.Pairwise (· < ·)) :
    (∀ b, l.foldl s.chooses none = some b → b ∈ l ∧ s.walker.waiting.get b = true) ∧
    ∀ m ∈ l, s.walker.waiting.get m = true → ∃ b, l.foldl s.chooses none = some b ∧ (b = m ∨ s.outranks b m) := by
  induction l using List.reverseRecOn with
  | nil => exact ⟨nofun, nofun⟩
  | append_singleton l a ih =>
    obtain ⟨hpair, -, hlast⟩ := List.pairwise_append.mp hl
    obtain ⟨hsound, hbest⟩ := ih hpair
    rw [List.foldl_append, List.foldl_cons, List.foldl_nil]
    by_cases ha : s.walker.waiting.get a = true
    · cases hbefore : l.foldl s.chooses none with
      | none =>
        rw [State.chooses_first ha]
        refine ⟨fun b hb => ?_, fun m hm hw => ⟨a, rfl, ?_⟩⟩
        · obtain rfl := Option.some.inj hb
          exact ⟨List.mem_append_right _ List.mem_cons_self, ha⟩
        · rcases List.mem_append.mp hm with hm | hm
          · obtain ⟨b, hb, -⟩ := hbest m hm hw
            exact absurd (hbefore.symm.trans hb) nofun
          · exact .inl (List.mem_singleton.mp hm).symm
      | some b =>
        obtain ⟨hmem, hwait⟩ := hsound b hbefore
        have hold : ∀ m ∈ l, s.walker.waiting.get m = true → b = m ∨ s.outranks b m := fun m hm hw => by
          obtain ⟨c, hc, hcm⟩ := hbest m hm hw
          exact Option.some.inj (hbefore.symm.trans hc) ▸ hcm
        rw [State.chooses_next ha]
        by_cases hp : (s.chan b).config.priority < (s.chan a).config.priority
        · rw [if_pos hp]
          refine ⟨fun c hc => ?_, fun m hm hw => ⟨a, rfl, ?_⟩⟩
          · obtain rfl := Option.some.inj hc
            exact ⟨List.mem_append_right _ List.mem_cons_self, ha⟩
          · rcases List.mem_append.mp hm with hm | hm
            · exact .inr (State.outranks_of_priority hp (hold m hm hw))
            · exact .inl (List.mem_singleton.mp hm).symm
        · rw [if_neg hp]
          refine ⟨fun c hc => ?_, fun m hm hw => ⟨b, rfl, ?_⟩⟩
          · obtain rfl := Option.some.inj hc
            exact ⟨List.mem_append_left _ hmem, hwait⟩
          · rcases List.mem_append.mp hm with hm | hm
            · exact hold m hm hw
            · obtain rfl := List.mem_singleton.mp hm
              have hlt : b < m := hlast b hmem m List.mem_cons_self
              rcases Nat.lt_or_eq_of_le (Nat.le_of_not_lt hp) with h | h
              · exact .inr (.inl h)
              · exact .inr (.inr ⟨h, hlt⟩)
    · have hskip : ∀ o, s.chooses o a = o := fun o => if_neg ha
      rw [hskip]
      refine ⟨fun b hb => ⟨List.mem_append_left _ (hsound b hb).1, (hsound b hb).2⟩, fun m hm hw => ?_⟩
      rcases List.mem_append.mp hm with hm | hm
      · exact hbest m hm hw
      · exact absurd (List.mem_singleton.mp hm ▸ hw) ha

theorem State.chosen_none {s : State} (h : ∀ n, s.walker.waiting.get n = false) : s.chosen = none := by
  cases hc : s.chosen with
  | none => rfl
  | some b => exact absurd ((h b).symm.trans ((s.chooses_spec eightNumbers (by decide)).1 b hc).2) (by decide)

theorem State.chosen_eq {s : State} {n : Fin 8} (hw : s.walker.waiting.get n = true)
    (h : ∀ m : Fin 8, s.walker.waiting.get m = true → m ≠ n → s.outranks n m) : s.chosen = some n := by
  obtain ⟨hsound, hbest⟩ := s.chooses_spec eightNumbers (by decide)
  obtain ⟨b, hb, hbn⟩ := hbest n ((by decide : ∀ k : Fin 8, k ∈ eightNumbers) n) hw
  refine hb.trans (congrArg some (hbn.resolve_right fun hout => ?_))
  by_cases hne : b = n
  · rw [hne] at hout
    rcases hout with h1 | ⟨-, h1⟩ <;> exact absurd h1 (lt_irrefl _)
  · rcases hout with h1 | ⟨h1, h2⟩ <;> rcases h b (hsound b hb).2 hne with h3 | ⟨h3, h4⟩
    · exact absurd h3 (Nat.lt_asymm h1)
    · exact absurd h3 (Nat.ne_of_gt h1)
    · exact absurd h1 (Nat.ne_of_gt h3)
    · exact absurd h4 (lt_asymm h2)

theorem State.walkerChoice_idle {s : State} (h : s.walker.seek ≠ none ∨ ∀ n, s.walker.waiting.get n = false) :
    s.walkerChoice = s := by
  unfold State.walkerChoice
  rcases h with h | h
  · obtain ⟨k, hk⟩ := Option.ne_none_iff_exists'.mp h
    rw [hk]
  · rw [State.chosen_none h]
    cases s.walker.seek <;> rfl

/-- The part as the chosen channel has left the waiting set. -/
def State.unwaiting (s : State) (n : Fin 8) : State :=
  { s with walker := { s.walker with waiting := s.walker.waiting.set n false } }

theorem State.walkerChoice_chosen {s : State} {n : Fin 8} (hs : s.walker.seek = none) (hc : s.chosen = some n) :
    ((s.chan n).config.window.size = 0 → s.walkerChoice = (s.unwaiting n).exhaust n) ∧
    (0 < (s.chan n).config.window.size → s.walkerChoice = { s with walker := { s.walker with
      waiting := s.walker.waiting.set n false
      seek := some
        { chan := n, size := (s.chan n).config.window.size,
          start := startIndex (s.chan n).config (s.walker.cursors.get n),
          index := startIndex (s.chan n).config (s.walker.cursors.get n), examined := 0, renew := false,
          request := none } } }) := by
  unfold State.walkerChoice
  rw [hs, hc]
  exact ⟨fun h => if_pos h, fun h => if_neg h.ne'⟩

theorem State.exhaust_seeking {s : State} {n : Fin 8} (h : (s.chan n).state = .seeking) : s.exhaust n =
    { s with
      chans := s.chans.set n { s.chan n with state := .idle, exhausted := true }
      walker := { s.walker with seek := none }
      notices := s.notices.post .exhausted n.val } := by
  unfold State.exhaust
  dsimp only
  rw [if_pos h]
  rfl

/-! ## One examined position (R72, R73, R74) -/

theorem State.walkOn_next {s : State} {k : Seek} (h : (k.index + 1) % k.size ≠ k.start) : s.walkOn k =
    { s with walker := { s.walker with
        seek := some
          { k with index := (k.index + 1) % k.size, examined := min (k.examined + 1) 4294967295,
                   request := none } } } := if_pos h

theorem State.walkOn_round {s : State} {k : Seek} (h : (k.index + 1) % k.size = k.start) :
    (k.renew = true → s.walkOn k =
      { s with walker := { s.walker with
          seek := some
            { k with index := k.start, examined := min (k.examined + 1) 4294967295, request := none,
                     renew := false } } }) ∧
    (k.renew = false → s.walkOn k = s.exhaust k.chan) := by
  unfold State.walkOn
  dsimp only
  rw [h, if_neg (not_not.mpr rfl)]
  exact ⟨fun hr => if_pos hr, fun hr => if_neg (by rw [hr]; decide)⟩

theorem mixSelects_iff (c : Config) (t : Tube) : mixSelects c t = true ↔
    c.mix.getLsbD ((if t.planned then 4 else 0) +
      (if c.pattern.getLsbD (8 * (t.pos.row % 8) + t.pos.col % 8) then 2 else 0) +
      (if c.zones.getLsbD t.zone then 1 else 0)) = true := by
  have htimes : ∀ (b : Bool) (x : Nat), x * b.toNat = if b then x else 0 := fun b x => by
    cases b <;> simp
  have hone : ∀ b : Bool, b.toNat = if b then 1 else 0 := fun b => by cases b <;> rfl
  unfold mixSelects
  dsimp only
  rw [htimes, htimes, hone]

theorem StateSet.holds_iff (x : StateSet) (t : TubeState) :
    x.holds t = true ↔ (t = .untested ∧ x.untested = true) ∨ (t = .retest ∧ x.retest = true) := by
  cases t <;> simp [StateSet.holds]

/-- The five tests of a position (R73). -/
theorem State.passesTests_iff (s : State) (n : Fin 8) (p : Pos) : s.passesTests n p = true ↔
    ∃ (i : Nat) (t : Tube), s.map.at p = some i ∧ s.tube i = some t ∧
      inKeepout s.walker (s.chan n).config p = false ∧ mixSelects (s.chan n).config t = true ∧
      (s.chan n).config.states.holds t.state = true ∧ t.claim = none ∧
      s.clearanceHit (s.chan n).config.face p = false := by
  unfold State.passesTests
  dsimp only
  constructor
  · intro h
    cases ht : (s.map.at p).bind s.tube with
    | none => rw [ht] at h; exact absurd h nofun
    | some t =>
      obtain ⟨i, hi, hit⟩ := Option.bind_eq_some_iff.mp ht
      rw [ht] at h
      simp only [Bool.and_eq_true, Bool.not_eq_true', Option.isNone_iff_eq_none] at h
      obtain ⟨⟨⟨hk, hm⟩, hs, hc⟩, hhit⟩ := h
      exact ⟨i, t, hi, hit, hk, hm, hs, hc, hhit⟩
  · rintro ⟨i, t, hi, hit, hk, hm, hs, hc, hhit⟩
    rw [hi, Option.bind_some, hit]
    dsimp only
    rw [hk, hm, hs, hc, hhit]
    rfl

theorem inKeepout_false (w : Walker) (c : Config) (p : Pos) : inKeepout w c p = false ↔
    ∀ (r : Fin 8) (x : Rect), c.keepouts.get r = true → w.keepouts.get r = some x → x.holds p = false := by
  rw [Bool.eq_false_iff, ne_eq, inKeepout_iff]
  simp only [not_exists, not_and, Bool.not_eq_true]

theorem State.walkerExamine_busy {s : State} {k : Seek} (hs : s.walker.seek = some k) {x : Pos} (hr : k.request = some x) :
    s.walkerExamine = s := by
  unfold State.walkerExamine
  rw [hs]
  dsimp only
  rw [hr]
  rfl

theorem State.walkerExamine_free {s : State} {k : Seek} (hs : s.walker.seek = some k) (hr : k.request = none) :
    s.walkerExamine =
      if s.passesTests k.chan (walkPos (s.chan k.chan).config k.index) then
        { s with walker := { s.walker with
            seek := some { k with request := some (walkPos (s.chan k.chan).config k.index) } } }
      else s.walkOn k := by
  unfold State.walkerExamine
  rw [hs]
  dsimp only
  rw [hr]
  rfl

/-! ## The claim request (R75, R76) -/

theorem State.claimRequest_none {s : State} {k : Seek} (hs : s.walker.seek = some k) (hr : k.request = none) :
    s.claimRequest = s := by
  unfold State.claimRequest
  rw [hs]
  dsimp only
  rw [hr]

/-- A claim granted to the walker: the cursor stands at the position and the seek is over. -/
def State.walkerGrant (s : State) (k : Seek) (p : Pos) (i : Nat) (t : Tube) : State :=
  { s.grant k.chan i t with
    walker := { (s.grant k.chan i t).walker with
      cursors := (s.grant k.chan i t).walker.cursors.set k.chan (some p), seek := none } }

theorem State.claimRequest_at {s : State} {k : Seek} {p : Pos} {i : Nat} {t : Tube} (hs : s.walker.seek = some k)
    (hr : k.request = some p) (hp : s.map.at p = some i) (ht : s.tube i = some t) :
    (∀ reason, s.claimReason k.chan t = some reason → s.claimRequest = s.walkOn k) ∧
    (s.claimReason k.chan t = none → s.claimRequest = s.walkerGrant k p i t) := by
  have hit : (s.map.at p).bind (fun i => (s.tube i).map (fun t => (i, t))) = some (i, t) := by
    rw [hp, Option.bind_some, ht]; rfl
  unfold State.claimRequest
  rw [hs]
  dsimp only
  rw [hr]
  dsimp only
  rw [hit]
  dsimp only
  exact ⟨fun reason h => by rw [h], fun h => by rw [h]; rfl⟩

/-- Settles O53: the choice, the examined position by its tests, and the grant or the reason against it. -/
theorem walkerSeeks : Obligations.WalkerSeeks := by
  unfold Obligations.WalkerSeeks
  intro s hh
  rw [exec_walkerChoice hh, exec_walkerExamine hh, exec_claimRequest hh]
  refine ⟨fun h => congrArg _ (State.walkerChoice_idle h), fun n hs hw hbest => ?choice, fun k hk =>
    ⟨fun x hx => congrArg _ (State.walkerExamine_busy hk hx), fun hr => congrArg _ (State.claimRequest_none hk hr),
      ⟨State.walkOn_next, fun h => (State.walkOn_round h).1, fun h hr hst => ?ended⟩,
      fun p c passes hr hc hp hpasses => ?examined,
      fun p i u hr hp hu => ⟨fun reason h => congrArg _ ((State.claimRequest_at hk hr hp hu).1 reason h),
        fun hn => ?granted⟩⟩⟩
  case choice =>
    obtain ⟨hempty, hwindow⟩ := State.walkerChoice_chosen hs (State.chosen_eq hw hbest)
    refine ⟨fun h0 hst => ?_, fun hpos => ⟨startIndex (s.chan n).config (s.walker.cursors.get n), fun hc => ?_,
      fun p hc => ?_, congrArg _ (hwindow hpos)⟩⟩
    · rw [hempty h0, State.exhaust_seeking (s := s.unwaiting n) hst]
      unfold State.unwaiting State.chan
      dsimp only
      rw [hs]
    · rw [hc]; rfl
    · rw [hc]; rfl
  case ended => rw [(State.walkOn_round h).2 hr, State.exhaust_seeking hst]
  case examined =>
    subst hc hp
    have htests : passes ↔ s.passesTests k.chan (walkPos (s.chan k.chan).config k.index) = true := by
      rw [hpasses, State.passesTests_iff]
      simp only [inKeepout_false, mixSelects_iff, StateSet.holds_iff, State.clearanceHit_false]
    rw [State.walkerExamine_free hk hr, htests]
    exact ⟨fun h => by rw [if_pos h], fun h => by rw [if_neg h]⟩
  case granted =>
    obtain ⟨htube, hothers, hframe⟩ := s.grant_spec k.chan i u hu
    have hnot : u.state ≠ .claimed := by
      rcases (State.claimReason_none.mp hn).2.1 with hx | hx <;> rw [hx] <;> decide
    refine ⟨s.walkerGrant k p i u, grantClaim (s.chan k.chan).config i u, _,
      congrArg _ ((State.claimRequest_at hk hr hp hu).2 hn), rfl, htube, hothers,
      State.watched_of_notices (State.grant_watched (s := s) (n := k.chan) hu hnot) rfl,
      State.completes_of_same (State.grant_completes s k.chan i u) rfl rfl, rfl, ?_⟩
    unfold State.walkerGrant
    conv_lhs => rw [hframe]

end Sys2Proof.Machine
end

section
/-! The walk order (R67, R69, R70): a line and a place along it name a position, and back (O54). -/

namespace Sys2Proof.Machine

/-! ## Numbers from `lo` to `hi`, ascending or descending -/

theorem nth_within (b : Bool) {lo hi k : Nat} (h : k < hi + 1 - lo) : lo ≤ nth b lo hi k ∧ nth b lo hi k ≤ hi := by
  unfold nth
  split <;> omega

theorem placeOf_nth (b : Bool) {lo hi k : Nat} (h : k < hi + 1 - lo) : placeOf b lo hi (nth b lo hi k) = k := by
  unfold placeOf nth
  split <;> omega

theorem placeOf_lt (b : Bool) {lo hi x : Nat} (hlo : lo ≤ x) (hhi : x ≤ hi) : placeOf b lo hi x < hi + 1 - lo := by
  unfold placeOf
  split <;> omega

theorem nth_placeOf (b : Bool) {lo hi x : Nat} (hlo : lo ≤ x) (hhi : x ≤ hi) : nth b lo hi (placeOf b lo hi x) = x := by
  unfold placeOf nth
  split <;> omega

theorem lineAscends_eq (first serpentine : Bool) (line : Nat) :
    lineAscends first serpentine line = (first != (serpentine && line % 2 == 1)) := by
  unfold lineAscends
  cases serpentine && line % 2 == 1 <;> cases first <;> rfl

/-! ## Lines and places -/

/-- A walk index below the size of a window of `lines` lines of `len` places has its line and its place. -/
theorem line_place_lt {i lines len : Nat} (h : i < lines * len) : i / len < lines ∧ i % len < len := by
  have hlen : 0 < len := Nat.pos_of_ne_zero fun h0 => by rw [h0, Nat.mul_zero] at h; exact absurd h (Nat.not_lt_zero i)
  exact ⟨Nat.div_lt_of_lt_mul (Nat.mul_comm lines len ▸ h), Nat.mod_lt i hlen⟩

theorem index_of_line_place {line place lines len : Nat} (hl : line < lines) (hp : place < len) :
    line * len + place < lines * len ∧ (line * len + place) / len = line ∧ (line * len + place) % len = place := by
  have hlen : 0 < len := Nat.zero_lt_of_lt hp
  refine ⟨?_, ?_, ?_⟩
  · calc line * len + place < line * len + len := Nat.add_lt_add_left hp _
      _ = (line + 1) * len := (Nat.succ_mul line len).symm
      _ ≤ lines * len := Nat.mul_le_mul_right len hl
  · rw [Nat.add_comm, Nat.add_mul_div_right _ _ hlen, Nat.div_eq_of_lt hp, Nat.zero_add]
  · rw [Nat.add_comm, Nat.add_mul_mod_self_right, Nat.mod_eq_of_lt hp]

theorem walkPos_row {c : Config} (h : c.majorAxis = .row) (i : Nat) : walkPos c i =
    { row := nth c.startCorner.top c.window.rowLo c.window.rowHi (i / c.window.cols)
      col := nth (lineAscends c.startCorner.left c.serpentine (i / c.window.cols)) c.window.colLo c.window.colHi
        (i % c.window.cols) } := by
  unfold walkPos
  rw [h]

theorem walkPos_column {c : Config} (h : c.majorAxis = .column) (i : Nat) : walkPos c i =
    { row := nth (lineAscends c.startCorner.top c.serpentine (i / c.window.rows)) c.window.rowLo c.window.rowHi
        (i % c.window.rows)
      col := nth c.startCorner.left c.window.colLo c.window.colHi (i / c.window.rows) } := by
  unfold walkPos
  rw [h]

theorem walkIndex_row {c : Config} (h : c.majorAxis = .row) (p : Pos) {line : Nat}
    (hl : placeOf c.startCorner.top c.window.rowLo c.window.rowHi p.row = line) : walkIndex c p =
      line * c.window.cols +
        placeOf (lineAscends c.startCorner.left c.serpentine line) c.window.colLo c.window.colHi p.col := by
  subst hl
  unfold walkIndex
  rw [h]

theorem walkIndex_column {c : Config} (h : c.majorAxis = .column) (p : Pos) {line : Nat}
    (hl : placeOf c.startCorner.left c.window.colLo c.window.colHi p.col = line) : walkIndex c p =
      line * c.window.rows +
        placeOf (lineAscends c.startCorner.top c.serpentine line) c.window.rowLo c.window.rowHi p.row := by
  subst hl
  unfold walkIndex
  rw [h]

/-! ## The two maps, inverse to each other -/

theorem walkPos_holds {c : Config} {i : Nat} (h : i < c.window.size) : c.window.holds (walkPos c i) = true := by
  rw [Rect.holds_iff]
  cases hx : c.majorAxis with
  | row =>
    obtain ⟨hline, hplace⟩ := line_place_lt (lines := c.window.rows) (len := c.window.cols) h
    rw [walkPos_row hx]
    obtain ⟨h1, h2⟩ := nth_within c.startCorner.top (k := i / c.window.cols) hline
    exact ⟨h1, h2, nth_within _ hplace⟩
  | column =>
    obtain ⟨hline, hplace⟩ := line_place_lt (lines := c.window.cols) (len := c.window.rows)
      (h.trans_eq (Nat.mul_comm _ _))
    rw [walkPos_column hx]
    obtain ⟨h1, h2⟩ := nth_within (lineAscends c.startCorner.top c.serpentine (i / c.window.rows)) hplace
    exact ⟨h1, h2, nth_within _ hline⟩

theorem walkIndex_walkPos {c : Config} {i : Nat} (h : i < c.window.size) : walkIndex c (walkPos c i) = i := by
  cases hx : c.majorAxis with
  | row =>
    obtain ⟨hline, hplace⟩ := line_place_lt (lines := c.window.rows) (len := c.window.cols) h
    rw [walkPos_row hx, walkIndex_row hx _ (placeOf_nth c.startCorner.top hline), placeOf_nth _ hplace]
    exact Nat.div_add_mod' i c.window.cols
  | column =>
    obtain ⟨hline, hplace⟩ := line_place_lt (lines := c.window.cols) (len := c.window.rows)
      (h.trans_eq (Nat.mul_comm _ _))
    rw [walkPos_column hx, walkIndex_column hx _ (placeOf_nth c.startCorner.left hline), placeOf_nth _ hplace]
    exact Nat.div_add_mod' i c.window.rows

theorem walkPos_walkIndex {c : Config} {p : Pos} (h : c.window.holds p = true) :
    walkIndex c p < c.window.size ∧ walkPos c (walkIndex c p) = p := by
  obtain ⟨h1, h2, h3, h4⟩ := (c.window.holds_iff p).mp h
  cases hx : c.majorAxis with
  | row =>
    obtain ⟨hlt, hdiv, hmod⟩ := index_of_line_place (placeOf_lt c.startCorner.top h1 h2)
      (placeOf_lt (lineAscends c.startCorner.left c.serpentine
        (placeOf c.startCorner.top c.window.rowLo c.window.rowHi p.row)) h3 h4)
    rw [walkIndex_row hx p rfl, walkPos_row hx]
    refine ⟨hlt, ?_⟩
    unfold Rect.cols
    rw [hdiv, hmod, nth_placeOf _ h1 h2, nth_placeOf _ h3 h4]
  | column =>
    obtain ⟨hlt, hdiv, hmod⟩ := index_of_line_place (placeOf_lt c.startCorner.left h3 h4)
      (placeOf_lt (lineAscends c.startCorner.top c.serpentine
        (placeOf c.startCorner.left c.window.colLo c.window.colHi p.col)) h1 h2)
    rw [walkIndex_column hx p rfl, walkPos_column hx]
    refine ⟨hlt.trans_eq (Nat.mul_comm _ _), ?_⟩
    unfold Rect.rows
    rw [hdiv, hmod, nth_placeOf _ h1 h2, nth_placeOf _ h3 h4]

theorem Corner.top_iff (x : Corner) : x.top = true ↔ x = .topLeft ∨ x = .topRight := by
  cases x <;> simp [Corner.top]

theorem Corner.left_iff (x : Corner) : x.left = true ↔ x = .topLeft ∨ x = .bottomLeft := by
  cases x <;> simp [Corner.left]

/-- Settles O54: index and position by line and place, along the major axis. -/
theorem walkVisitsOnce : Obligations.WalkVisitsOnce := by
  unfold Obligations.WalkVisitsOnce
  intro c w hw
  subst hw
  refine ⟨rfl, fun i hi => ⟨walkPos_holds hi, walkIndex_walkPos hi⟩, fun p hp => walkPos_walkIndex hp,
    fun i line place down right _ hd hr => ?_⟩
  obtain rfl : down = c.startCorner.top := Bool.eq_iff_iff.mpr (hd.trans c.startCorner.top_iff.symm)
  obtain rfl : right = c.startCorner.left := Bool.eq_iff_iff.mpr (hr.trans c.startCorner.left_iff.symm)
  refine ⟨fun hx hl hp => ?_, fun hx hl hp => ?_⟩ <;> subst hl hp
  · rw [walkPos_row hx, lineAscends_eq]
    exact ⟨rfl, rfl⟩
  · rw [walkPos_column hx, lineAscends_eq]
    exact ⟨rfl, rfl⟩

end Sys2Proof.Machine
end

section
/-! The steps of RESET# behind its blocks (R21, R178): what they share once every channel is OFF, and the release of the
claims at their tubes. -/

namespace Sys2Proof.Machine

/-! ## The part at rest: no step wakes a channel -/

/-- Every channel is OFF with its exhausted flag clear, none waits, and no seek is in progress. -/
def State.dormant (s : State) : Prop :=
  (∀ n, (s.chan n).state = .off ∧ (s.chan n).exhausted = false) ∧ s.walker.seek = none ∧
    ∀ n, s.walker.waiting.get n = false

/-- A change of a tube that finds the part dormant leaves channels and walker alone. -/
theorem State.changeTube_dormant {s : State} (h : s.dormant) (i : Nat) (f : Tube → Tube) :
    (s.changeTube i f).chans = s.chans ∧ (s.changeTube i f).walker = s.walker := by
  obtain ⟨hchans, hseek, hwaiting⟩ := h
  rcases s.changeTube_quiet_or_signals i f with hq | ⟨hchan, hs, hw⟩
  · exact hq
  · refine ⟨Eight.ext_get fun n => (hchan n).trans (if_neg (by rw [(hchans n).2]; decide)), ?_⟩
    have hwaits : (s.changeTube i f).walker.waiting = s.walker.waiting := Eight.ext_get fun n => by
      rw [hwaiting n, Bool.eq_false_iff, ne_eq, hw n, hwaiting n, (hchans n).2]
      simp
    have hframe := congrArg State.walker (s.changeTube_frame i f)
    refine hframe.trans ?_
    dsimp only
    rw [hs, hwaits, hseek, Option.map_none, ← hseek]

/-! ## A step of the reset -/

/-- The part of a tube's record that no step of a reset touches. -/
def Tube.lasting (t : Tube) : Tube := { t with state := .untested, claim := none, worstFinal := none }

theorem Tube.lasting_eq {t u : Tube} (h : u.lasting = t.lasting) :
    u = { t with state := u.state, claim := u.claim, worstFinal := u.worstFinal } := by
  obtain ⟨⟩ := t
  obtain ⟨⟩ := u
  simp only [Tube.lasting, Tube.mk.injEq] at h ⊢
  tauto

/-- The classes the releases, the evaluations, the completion check and the pool's judgement post. -/
def resetNotices : List NoticeClass := [.watch, .blocked, .plugCall, .campaignComplete, .pool]

/-- A step of a reset behind its blocks, from `s` to `u`. -/
structure State.ResetStep (s u : State) : Prop where
  frame : u = { s with
    map := { s.map with tubes := u.map.tubes, census := u.map.census, armed := u.map.armed }
    store := u.store, notices := u.notices }
  posts : s.postsOnly u resetNotices
  kept : ∀ P : NoticeUnit → Prop, KeptByPosts P → P s.notices → P u.notices
  record : ∀ i, (u.tube i).map Tube.lasting = (s.tube i).map Tube.lasting
  armed : s.map.phase ≠ .active → u.map.armed = s.map.armed

theorem State.ResetStep.refl (s : State) : s.ResetStep s where
  frame := rfl
  posts _ := .inl
  kept _ _ h := h
  record _ := rfl
  armed _ := rfl

theorem State.ResetStep.trans {s u v : State} (h : s.ResetStep u) (k : u.ResetStep v) : s.ResetStep v where
  frame := k.frame.trans ((congrArg (fun x : State => { x with
    map := { x.map with tubes := v.map.tubes, census := v.map.census, armed := v.map.armed }
    store := v.store, notices := v.notices }) h.frame).trans rfl)
  posts := State.postsOnly_trans h.posts k.posts
  kept P hP hs := k.kept P hP (h.kept P hP hs)
  record i := (k.record i).trans (h.record i)
  armed hp := (k.armed (by rw [h.frame]; exact hp)).trans (h.armed hp)

theorem State.ResetStep.dormant {s u : State} (h : s.ResetStep u) (hs : s.dormant) : u.dormant := by
  rw [h.frame]
  exact hs

theorem State.ResetStep.count {s u : State} (h : s.ResetStep u) : u.map.tubes.length = s.map.tubes.length := by
  have hrecords : u.map.tubes.map Tube.lasting = s.map.tubes.map Tube.lasting := List.ext_getElem? fun i => by
    rw [List.getElem?_map, List.getElem?_map]
    exact h.record i
  rw [← List.length_map (f := Tube.lasting), hrecords, List.length_map]

theorem State.ResetStep.chans {s u : State} (h : s.ResetStep u) : u.chans = s.chans :=
  (congrArg State.chans h.frame).trans rfl

theorem State.ResetStep.params {s u : State} (h : s.ResetStep u) : u.map.params = s.map.params := by rw [h.frame]

theorem State.ResetStep.foldl {α : Type} {f : State → α → State}
    (hf : ∀ (s : State) a, s.dormant → s.ResetStep (f s a)) (l : List α) :
    ∀ s : State, s.dormant → s.ResetStep (l.foldl f s) := by
  induction l with
  | nil => exact fun s _ => .refl s
  | cons a t ih => exact fun s hs => (hf s a hs).trans (ih _ ((hf s a hs).dormant hs))

/-- Watches that a later state of a reset tells are told for the tube as the reset found it. -/
theorem State.ResetStep.watched {s r u : State} {i : Nat} (h : s.ResetStep r) (hw : r.watched u i) : s.watched u i := by
  intro k t ht hk
  have hrecord := h.record i
  rw [ht] at hrecord
  obtain ⟨x, hx, hlast⟩ := Option.map_eq_some_iff.mp hrecord
  have hpos : x.lasting.pos = t.lasting.pos := by rw [hlast]
  refine hw k x hx ?_
  rw [h.frame, show x.pos = t.pos from hpos]
  exact hk

theorem State.changeTube_resetStep {s : State} (hs : s.dormant) (i : Nat) {f : Tube → Tube}
    (hf : ∀ t, (f t).lasting = t.lasting) : s.ResetStep (s.changeTube i f) := by
  obtain ⟨hchans, hwalker⟩ := State.changeTube_dormant hs i f
  refine { frame := ?frame, posts := fun m hm => ?posts, kept := fun P hP hn => State.changeTube_notices hP s i f hn,
           record := fun j => ?record, armed := fun hp => ?armed }
  case frame =>
    conv_lhs => rw [State.changeTube_frame, hchans, hwalker]
    rw [show (s.changeTube i f).store = s.store by rw [State.changeTube_frame]]
  case posts =>
    rcases State.changeTube_enters hm with h | h | h | h
    · exact .inl h
    · exact .inr (by rw [h]; decide)
    · exact .inr (by rw [h]; decide)
    · exact .inr (by rw [h]; decide)
  case record =>
    rw [State.changeTube_tube]
    split
    · rw [Option.map_map]
      exact congrArg (Option.map · (s.tube j)) (funext hf)
    · rfl
  case armed =>
    obtain ⟨-, -, hsame, -⟩ := s.changeTube_completes i f _ _ Iff.rfl Iff.rfl
    exact hsame (.inl fun h => hp h.1)

/-! ## The claims released (R21, R25) -/

theorem Tube.releaseTo_lasting (p : TubeState) (t : Tube) : (t.releaseTo p).lasting = t.lasting := rfl

theorem State.releaseTube_none {s : State} {c : Channel} (h : c.claim = none) : s.releaseTube c = s := by
  unfold State.releaseTube
  rw [h]

theorem State.releaseTube_some {s : State} {c : Channel} {k : Claim} (h : c.claim = some k) :
    s.releaseTube c = s.changeTube k.tube (Tube.releaseTo k.prior) := by
  unfold State.releaseTube
  rw [h]

theorem State.releaseTube_resetStep (s : State) (c : Channel) (hs : s.dormant) : s.ResetStep (s.releaseTube c) := by
  cases h : c.claim with
  | none => rw [State.releaseTube_none h]; exact .refl s
  | some k => rw [State.releaseTube_some h]; exact State.changeTube_resetStep hs _ fun t => t.releaseTo_lasting _

/-- The claims of the channels `l` released at their tubes. -/
def State.releases (s : State) (l : List Channel) : State := l.foldl State.releaseTube s

theorem State.releases_resetStep {s : State} (hs : s.dormant) (l : List Channel) : s.ResetStep (s.releases l) :=
  State.ResetStep.foldl State.releaseTube_resetStep l s hs

theorem State.releases_store (l : List Channel) : ∀ s : State, (s.releases l).store = s.store := by
  induction l with
  | nil => exact fun s => rfl
  | cons c t ih =>
    intro s
    refine (ih (s.releaseTube c)).trans ?_
    cases h : c.claim with
    | none => rw [State.releaseTube_none h]
    | some k => rw [State.releaseTube_some h, State.changeTube_frame]

/-- Tubes that no channel of `l` claims are as they were. -/
theorem State.releases_unclaimed {i : Nat} (l : List Channel) (h : ∀ c ∈ l, ∀ k, c.claim = some k → k.tube ≠ i) :
    ∀ s : State, (s.releases l).tube i = s.tube i := by
  induction l with
  | nil => exact fun s => rfl
  | cons c t ih =>
    intro s
    refine (ih (fun x hx => h x (List.mem_cons_of_mem c hx)) (s.releaseTube c)).trans ?_
    cases hc : c.claim with
    | none => rw [State.releaseTube_none hc]
    | some k => rw [State.releaseTube_some hc, State.changeTube_tube, if_neg (h c List.mem_cons_self k hc)]

theorem State.releases_idle {s : State} (l : List Channel) (h : ∀ c ∈ l, c.claim = none) : s.releases l = s := by
  induction l with
  | nil => rfl
  | cons c t ih =>
    unfold State.releases
    rw [List.foldl_cons, State.releaseTube_none (h c List.mem_cons_self)]
    exact ih fun x hx => h x (List.mem_cons_of_mem c hx)

theorem Eight.toList_eq {α : Type} (v : Eight α) : v.toList = eightNumbers.map v.get := rfl

theorem Eight.forall_toList {α : Type} {v : Eight α} {p : α → Prop} (h : ∀ n, p (v.get n)) : ∀ x ∈ v.toList, p x := by
  intro x hx
  obtain ⟨n, -, rfl⟩ := List.mem_map.mp (Eight.toList_eq v ▸ hx)
  exact h n

/-- A tube that one channel alone claims is released once, by its claim's prior state, and watched where that moves it. -/
theorem State.releases_claimed {s : State} (hs : s.dormant) (v : Eight Channel) {n : Fin 8} {k : Claim}
    (hk : (v.get n).claim = some k) (hone : ∀ m j, (v.get m).claim = some j → j.tube = k.tube → m = n) :
    (s.releases v.toList).tube k.tube = (s.tube k.tube).map (Tube.releaseTo k.prior) ∧
    ∀ t, s.tube k.tube = some t → t.state ≠ (t.releaseTo k.prior).state →
      s.watched (s.releases v.toList) k.tube := by
  obtain ⟨a, b, hab⟩ := List.append_of_mem ((by decide : ∀ m : Fin 8, m ∈ eightNumbers) n)
  have hnd : (a ++ n :: b).Nodup := hab ▸ (by decide : eightNumbers.Nodup)
  obtain ⟨-, hnb, hdisjoint⟩ := List.nodup_append.mp hnd
  have hother : ∀ l : List (Fin 8), n ∉ l → ∀ c ∈ l.map v.get, ∀ j, c.claim = some j → j.tube ≠ k.tube := by
    intro l hn c hc j hj ht
    obtain ⟨m, hm, rfl⟩ := List.mem_map.mp hc
    exact hn (hone m j hj ht ▸ hm)
  have hafter := hother b (List.nodup_cons.mp hnb).1
  have hbefore := hother a fun hn => hdisjoint n hn n List.mem_cons_self rfl
  have hsplit : s.releases v.toList =
      ((s.releases (a.map v.get)).changeTube k.tube (Tube.releaseTo k.prior)).releases (b.map v.get) := by
    unfold State.releases
    rw [Eight.toList_eq, hab, List.map_append, List.map_cons, List.foldl_append, List.foldl_cons,
      State.releaseTube_some hk]
  have hfirst := State.releases_unclaimed (a.map v.get) hbefore s
  have hstep := State.releases_resetStep hs (a.map v.get)
  have hdormant := (State.changeTube_resetStep (hstep.dormant hs) k.tube
    fun t => t.releaseTo_lasting k.prior).dormant (hstep.dormant hs)
  rw [hsplit]
  constructor
  · rw [State.releases_unclaimed _ hafter, State.changeTube_tube, if_pos rfl, hfirst]
  · intro t ht hmoved
    exact hstep.watched (State.watched_later
      (State.changeTube_watched _ k.tube _ t (hfirst.trans ht) hmoved rfl)
      (State.releases_resetStep hdormant _).kept)

end Sys2Proof.Machine
end

section
/-! The entries that RESET# returns from RESOLVING (R178), one after another. -/

namespace Sys2Proof.Machine

/-- An entry as RESET# leaves it: returned when it was RESOLVING. -/
def Entry.afterReset (e : Entry) : Entry := if e.status = .resolving then e.returned else e

theorem Entry.afterReset_status (e : Entry) : e.afterReset.status ≠ .resolving := by
  unfold Entry.afterReset
  split
  · exact nofun
  · next h => exact h

/-- An evaluation behind one that found an entry in dispute: the first leaves no trace. -/
theorem Tube.evaluated_again {t : Tube} {limit : Nat} {st st' : Store} {n : Nat} {e : Entry} (hn : n ∈ t.entries)
    (he : st.entry n = some e) (hd : e.status = .disputed ∨ e.status = .resolving) :
    (t.evaluated limit st).evaluated limit st' = t.evaluated limit st' := by
  unfold Tube.evaluated
  dsimp only
  rw [evaluationState_disputed (Store.mem_listedEntries hn he) hd]
  cases htake : t.state.takesCalls
  · simp only [Bool.false_eq_true, if_false, htake]
  · simp only [if_true, show TubeState.takesCalls .underReview = true from rfl]
    rfl

/-! ## One entry -/

theorem State.returnIfResolving_other {s : State} {n : Nat}
    (h : ∀ e, s.store.entry n = some e → e.status ≠ .resolving) : s.returnIfResolving n = s := by
  unfold State.returnIfResolving
  split
  · rfl
  · next e he => exact if_neg (h e he)

theorem State.returnIfResolving_resolving {s : State} {n : Nat} {e : Entry} (he : s.store.entry n = some e)
    (h : e.status = .resolving) : s.returnIfResolving n = s.changeStatus n e.returned := by
  unfold State.returnIfResolving
  rw [he]
  exact if_pos h

theorem State.changeStatus_resetStep {s : State} (n : Nat) (e : Entry) : s.ResetStep (s.changeStatus n e) := by
  have hev := (s.changeStatus_evaluates n e).1
  obtain ⟨hown, hother, hcompletes, -⟩ := hev
  obtain ⟨hstore, hseats, -, -⟩ := s.changeStatus_store n e
  obtain ⟨hchans, hwalker⟩ := s.changeStatus_quiet n e
  refine { frame := ?frame, posts := fun m hm => ?posts, kept := fun P hP hn => State.changeStatus_notices hP s n e hn,
           record := fun j => ?record, armed := fun hp => ?armed }
  case frame =>
    conv_lhs => rw [State.changeStatus_frame, hchans, hwalker]
    rw [hstore]
  case posts =>
    rcases State.changeStatus_enters hm with h | h | h | h | h
    · exact .inl h
    · exact .inr (by rw [h]; decide)
    · exact .inr (by rw [h]; decide)
    · exact .inr (by rw [h]; decide)
    · exact .inr (by rw [h]; decide)
  case record =>
    by_cases hj : j = e.tube
    · subst hj
      cases ht : s.tube e.tube with
      | none => rw [State.changeStatus_tube_none ht]
      | some t => rw [hown t ht]; rfl
    · rw [hother j hj]
  case armed =>
    obtain ⟨-, -, hsame, -⟩ := hcompletes _ _ Iff.rfl Iff.rfl
    exact hsame (.inl fun h => hp h.1)

/-! ## The list of the entries in use -/

/-- Entry `e`, number `n` of the list, was RESOLVING in `s`. -/
def State.resolvingIn (s : State) (l : List Nat) (n : Nat) (e : Entry) : Prop :=
  n ∈ l ∧ s.store.entry n = some e ∧ e.status = .resolving

/-- Returning the RESOLVING entries of `l` has led from `s` to `u`. -/
structure State.EntriesReturned (s u : State) (l : List Nat) : Prop where
  step : s.ResetStep u
  free : u.store.free = s.store.free
  issue : ∀ k, (u.store.slot k).issue = (s.store.slot k).issue
  listed : ∀ k ∈ l, u.store.entry k = (s.store.entry k).map Entry.afterReset
  unlisted : ∀ k, k ∉ l → u.store.entry k = s.store.entry k
  tube : ∀ i, (∀ n e, s.resolvingIn l n e → e.tube ≠ i) → u.tube i = s.tube i
  watched : ∀ n e, s.resolvingIn l n e → s.watched u e.tube
  evaluated : ∀ n e t, s.resolvingIn l n e → s.tube e.tube = some t →
    (∀ x f, s.store.entry x = some f → f.status = .resolving → (x ∈ t.entries ↔ f.tube = e.tube)) →
    u.tube e.tube = some (t.evaluated s.map.params.plugLimit u.store)

theorem State.EntriesReturned.nil (s : State) : s.EntriesReturned s [] where
  step := .refl s
  free := rfl
  issue _ := rfl
  listed := nofun
  unlisted _ _ := rfl
  tube _ _ := rfl
  watched _ _ h := absurd h.1 List.not_mem_nil
  evaluated _ _ _ h := absurd h.1 List.not_mem_nil

/-- An entry that is still RESOLVING is not of the list, and is as it was. -/
theorem State.EntriesReturned.still {s u : State} {l : List Nat} (h : s.EntriesReturned u l) {n : Nat} {e : Entry}
    (he : u.store.entry n = some e) (hr : e.status = .resolving) : n ∉ l ∧ s.store.entry n = some e := by
  have hn : n ∉ l := fun hn => by
    rw [h.listed n hn] at he
    obtain ⟨f, -, rfl⟩ := Option.map_eq_some_iff.mp he
    exact f.afterReset_status hr
  exact ⟨hn, h.unlisted n hn ▸ he⟩

theorem State.resolvingIn_append {s : State} {l : List Nat} {a n : Nat} {e : Entry} (h : s.resolvingIn (l ++ [a]) n e)
    (hne : n ≠ a) : s.resolvingIn l n e := by
  obtain ⟨hn, he⟩ := h
  exact ⟨(List.mem_append.mp hn).resolve_right fun h => hne (List.mem_singleton.mp h), he⟩

theorem State.resolvingIn_left {s : State} {l : List Nat} {a n : Nat} {e : Entry} (h : s.resolvingIn l n e) :
    s.resolvingIn (l ++ [a]) n e :=
  ⟨List.mem_append_left _ h.1, h.2⟩

/-- One more number whose entry is not RESOLVING any more, or never was. -/
theorem State.EntriesReturned.skip {s u : State} {l : List Nat} (h : s.EntriesReturned u l) {a : Nat}
    (ha : ∀ e, u.store.entry a = some e → e.status ≠ .resolving) : s.EntriesReturned u (l ++ [a]) := by
  have hin : ∀ n e, s.resolvingIn (l ++ [a]) n e → s.resolvingIn l n e := by
    intro n e ⟨hn, he, hr⟩
    refine ⟨not_not.mp fun hnl => ?_, he, hr⟩
    obtain rfl : n = a := (List.mem_append.mp hn).elim (absurd · hnl) List.mem_singleton.mp
    exact ha e ((h.unlisted n hnl).trans he) hr
  have hsettled : ∀ o : Option Entry, (∀ e, o = some e → e.status ≠ .resolving) → o = o.map Entry.afterReset := by
    intro o ho
    cases o with
    | none => rfl
    | some e => exact congrArg some (if_neg (ho e rfl)).symm
  refine { h with
    listed := fun k hk => ?_, unlisted := fun k hk => h.unlisted k fun hl => hk (List.mem_append_left _ hl)
    tube := fun i hi => h.tube i fun n e he => hi n e (State.resolvingIn_left he)
    watched := fun n e he => h.watched n e (hin n e he)
    evaluated := fun n e t he => h.evaluated n e t (hin n e he) }
  by_cases hkl : k ∈ l
  · exact h.listed k hkl
  · obtain rfl : k = a := (List.mem_append.mp hk).elim (absurd · hkl) List.mem_singleton.mp
    rw [← h.unlisted k hkl]
    exact hsettled _ ha

/-- One more number, whose entry is returned. -/
theorem State.EntriesReturned.give {s u : State} {l : List Nat} (h : s.EntriesReturned u l) {a : Nat} {g : Entry}
    (hg : u.store.entry a = some g) (hr : g.status = .resolving) :
    s.EntriesReturned (u.changeStatus a g.returned) (l ++ [a]) := by
  obtain ⟨hal, hsg⟩ := h.still hg hr
  obtain ⟨⟨hown, hother, -, -⟩, hstore⟩ := u.changeStatus_evaluates a g.returned
  have hentry : ∀ k, (u.changeStatus a g.returned).store.entry k = if a = k then some g.returned else u.store.entry k :=
    fun k => by rw [hstore]; exact Store.entry_setEntry _ _ _ _
  have hlimit : u.map.params.plugLimit = s.map.params.plugLimit := by rw [h.step.params]
  have hself : ∀ n e, s.resolvingIn (l ++ [a]) n e → n = a → e = g := by
    rintro n e ⟨-, he, -⟩ rfl
    exact Option.some.inj (he.symm.trans hsg)
  refine
    { step := h.step.trans (State.changeStatus_resetStep a _), free := ?free, issue := fun k => ?issue,
      listed := fun k hk => ?listed, unlisted := fun k hk => ?unlisted, tube := fun i hi => ?tube,
      watched := fun n e he => ?watched, evaluated := fun n e t he ht hiff => ?evaluated }
  case free => rw [hstore]; exact h.free
  case issue =>
    rw [hstore]
    refine Eq.trans ?_ (h.issue k)
    unfold Store.setEntry
    rw [Store.slot_setSlot]
    split
    · next hk => rw [hk]
    · rfl
  case listed =>
    rw [hentry]
    by_cases hka : a = k
    · subst hka
      rw [if_pos rfl, hsg]
      exact congrArg some (if_pos hr).symm
    · rw [if_neg hka]
      exact h.listed k ((List.mem_append.mp hk).resolve_right fun hm => hka (List.mem_singleton.mp hm).symm)
  case unlisted =>
    rw [hentry, if_neg (by rintro rfl; exact hk (List.mem_append_right _ List.mem_cons_self))]
    exact h.unlisted k fun hl => hk (List.mem_append_left _ hl)
  case tube =>
    have hga : g.tube ≠ i := hi a g ⟨List.mem_append_right _ List.mem_cons_self, hsg, hr⟩
    exact (hother i (Ne.symm hga)).trans (h.tube i fun n e he => hi n e (State.resolvingIn_left he))
  case watched =>
    by_cases hna : n = a
    · obtain rfl := hself n e he hna
      exact h.step.watched (u.changeStatus_watched a e.returned)
    · exact State.watched_later (h.watched n e (State.resolvingIn_append he hna))
        (State.changeStatus_resetStep a g.returned).kept
  case evaluated =>
    by_cases hgt : g.tube = e.tube
    · have hin : a ∈ t.entries := (hiff a g hsg hr).mpr hgt
      have hlast : ∀ T, u.tube e.tube = some T → (u.changeStatus a g.returned).tube e.tube =
          some (T.evaluated s.map.params.plugLimit (u.changeStatus a g.returned).store) := by
        intro T hT
        have := hown T (show u.tube g.tube = some T from hgt ▸ hT)
        rw [hlimit] at this
        exact hgt ▸ this
      by_cases hbefore : ∃ m f, s.resolvingIn l m f ∧ f.tube = e.tube
      · obtain ⟨m, f, hf, hft⟩ := hbefore
        have hT := h.evaluated m f t hf (hft ▸ ht) (by rw [hft]; exact hiff)
        rw [hft] at hT
        rw [hlast _ hT, Tube.evaluated_again hin hg (.inr hr)]
      · exact hlast t ((h.tube e.tube fun m f hf hft => hbefore ⟨m, f, hf, hft⟩).trans ht)
    · have hna : n ≠ a := fun hna => hgt (by rw [hself n e he hna])
      refine (hother e.tube (Ne.symm hgt)).trans ?_
      refine (h.evaluated n e t (State.resolvingIn_append he hna) ht hiff).trans (congrArg some ?_)
      refine Tube.evaluated_congr fun x hx => ?_
      rw [hentry, if_neg]
      rintro rfl
      exact hgt ((hiff a g hsg hr).mp hx)

theorem State.entriesReturned (s : State) (l : List Nat) : s.EntriesReturned (l.foldl State.returnIfResolving s) l := by
  induction l using List.reverseRecOn with
  | nil => exact .nil s
  | append_singleton l a ih =>
    rw [List.foldl_append, List.foldl_cons, List.foldl_nil]
    by_cases h : ∃ e, (l.foldl State.returnIfResolving s).store.entry a = some e ∧ e.status = .resolving
    · obtain ⟨e, he, hr⟩ := h
      rw [State.returnIfResolving_resolving he hr]
      exact ih.give he hr
    · have hno : ∀ e, (l.foldl State.returnIfResolving s).store.entry a = some e → e.status ≠ .resolving :=
        fun e he hr => h ⟨e, he, hr⟩
      rw [State.returnIfResolving_other hno]
      exact ih.skip hno

end Sys2Proof.Machine
end

section
/-! RESET# as a whole (O5, O6): the blocks, the releases, the returns, the completion check and the pool's judgement. -/

namespace Sys2Proof.Machine

/-! ## The entries in use, the two flags -/

theorem sparseGet_mem {α : Type} {d : α} {l : List (Nat × α)} {n : Nat} (h : sparseGet d l n ≠ d) :
    (n, sparseGet d l n) ∈ l := by
  induction l with
  | nil => exact absurd rfl h
  | cons a t ih =>
    obtain ⟨k, v⟩ := a
    have hget : sparseGet d ((k, v) :: t) n = if k = n then v else sparseGet d t n := rfl
    rw [hget] at h ⊢
    split at h
    · next hk => rw [if_pos hk, hk]; exact List.mem_cons_self
    · next hk => rw [if_neg hk]; exact List.mem_cons_of_mem _ (ih h)

theorem Store.mem_inUse {st : Store} {n : Nat} {e : Entry} (h : st.entry n = some e) : n ∈ st.inUse := by
  have hcontent : (st.slot n).content = some e := h
  have hslot : sparseGet emptySlot st.pool n ≠ emptySlot := fun he =>
    absurd (hcontent.symm.trans (congrArg PoolSlot.content he)) nofun
  exact List.mem_map.mpr ⟨(n, st.slot n),
    List.mem_filter.mpr ⟨sparseGet_mem hslot, Option.isSome_iff_exists.mpr ⟨e, hcontent⟩⟩, rfl⟩

/-- The completion check with the flag just armed (R19). -/
theorem State.armCompletion_eq {s : State} (ha : s.map.phase = .active) {complete : Bool}
    (h : complete = decide (s.map.census.plannedOpen = 0 ∧ 0 < s.map.census.planned)) :
    s.armCompletion = { s with
      map := { s.map with armed := !complete }
      notices := if complete then s.notices.post .campaignComplete 0 else s.notices } := by
  subst h
  unfold State.armCompletion State.checkCompletion
  dsimp only
  rw [if_neg (not_not.mpr ha)]
  by_cases ho : 0 < s.map.census.plannedOpen
  · rw [if_pos ho, decide_eq_false fun h => absurd h.1 (Nat.ne_of_gt ho)]
    rfl
  · rw [if_neg ho]
    by_cases hp : 0 < s.map.census.planned
    · rw [decide_eq_true hp, decide_eq_true (⟨Nat.eq_zero_of_not_pos ho, hp⟩ : s.map.census.plannedOpen = 0 ∧ _)]
      rfl
    · rw [decide_eq_false hp, decide_eq_false fun h => hp h.2]
      rfl

theorem State.judgePool_warned {s : State} (h : s.store.warnArmed = true) : s.judgePool.notices =
    if s.store.free.count ≤ s.map.params.poolLevel then s.notices.post .pool 0 else s.notices := by
  by_cases hl : s.store.free.count ≤ s.map.params.poolLevel
  · unfold State.judgePool
    dsimp only
    rw [if_pos hl, decide_eq_true hl, h]
    rfl
  · rw [if_neg hl, State.judgePool_silent fun hc => hl hc.1]

theorem NoticeUnit.settings_kept (l : Levels) (f : Nat) : KeptByPosts (fun u => u.levels = l ∧ u.floor = f) := by
  intro u c k ⟨hl, hf⟩
  unfold NoticeUnit.post
  dsimp only
  split
  · exact ⟨hl, hf⟩
  · split
    · exact ⟨hl, hf⟩
    · split
      · exact ⟨hl, hf⟩
      · split
        · exact ⟨hl, hf⟩
        · split <;> exact ⟨hl, hf⟩

/-! ## The parts of the reset -/

/-- The part with its blocks reset and the claims released at their tubes. -/
def State.resetReleased (s : State) : State := s.resetBlocks.releases s.chans.toList

/-- … and the RESOLVING entries returned. -/
def State.resetReturned (s : State) : State := s.resetReleased.store.inUse.foldl State.returnIfResolving s.resetReleased

/-- … and the completion check armed and applied in ACTIVE. -/
def State.resetChecked (s : State) : State :=
  if s.resetReturned.map.phase = .active then s.resetReturned.armCompletion else s.resetReturned

/-- … and the pool warning armed. -/
def State.resetWarned (s : State) : State :=
  { s.resetChecked with store := { s.resetChecked.store with warnArmed := true } }

theorem State.resetPart_eq (s : State) : s.resetPart = s.resetWarned.judgePool := rfl

theorem exec_reset {s : State} (h : s.held = false) : exec .reset s = .next s.resetPart :=
  congrArg Host.Outcome.next (if_neg (by rw [h]; decide))

theorem State.resetBlocks_chan (s : State) (n : Fin 8) : s.resetBlocks.chan n = (s.chan n).afterReset := Eight.get_map _ _ _

theorem State.resetBlocks_dormant (s : State) : s.resetBlocks.dormant :=
  ⟨fun n => by rw [State.resetBlocks_chan]; exact ⟨rfl, rfl⟩, rfl, fun n => Eight.get_fill false n⟩

theorem State.resetReleased_step (s : State) : s.resetBlocks.ResetStep s.resetReleased :=
  State.releases_resetStep s.resetBlocks_dormant _

theorem State.resetReleased_store (s : State) : s.resetReleased.store = s.store := State.releases_store _ s.resetBlocks

theorem State.resetReturned_spec (s : State) :
    s.resetReleased.EntriesReturned s.resetReturned s.resetReleased.store.inUse := State.entriesReturned _ _

theorem State.armCompletion_resetStep {s : State} (ha : s.map.phase = .active) : s.ResetStep s.armCompletion where
  frame := by rw [State.armCompletion_frame]
  posts m hm := by
    rw [State.armCompletion_eq ha rfl] at hm
    dsimp only at hm
    split at hm
    · exact (NoticeUnit.post_enters hm).imp_right fun h => by rw [h]; decide
    · exact .inl hm
  kept _ hP hn := State.armCompletion_notices hP s hn
  record i := by rw [State.armCompletion_frame]; rfl
  armed hp := absurd ha hp

theorem State.resetChecked_step (s : State) : s.resetReturned.ResetStep s.resetChecked := by
  unfold State.resetChecked
  split
  · next ha => exact State.armCompletion_resetStep ha
  · exact .refl _

theorem State.store_resetStep (s : State) (st : Store) : s.ResetStep { s with store := st } where
  frame := rfl
  posts _ := .inl
  kept _ _ h := h
  record _ := rfl
  armed _ := rfl

theorem State.resetWarned_step (s : State) : s.resetChecked.ResetStep s.resetWarned := State.store_resetStep _ _

theorem State.judgePool_resetStep (s : State) : s.ResetStep s.judgePool where
  frame := by rw [State.judgePool_frame]
  posts m hm := (s.judgePool_postsOnly m hm).imp_right fun h => by rw [List.mem_singleton.mp h]; decide
  kept _ hP hn := State.judgePool_notices hP s hn
  record i := by rw [State.judgePool_frame]; rfl
  armed _ := by rw [State.judgePool_frame]

/-- The steps behind the return of the entries. -/
theorem State.resetReturned_last (s : State) : s.resetReturned.ResetStep s.resetPart :=
  State.resetPart_eq s ▸ s.resetChecked_step.trans (s.resetWarned_step.trans s.resetWarned.judgePool_resetStep)

theorem State.resetPart_step (s : State) : s.resetBlocks.ResetStep s.resetPart :=
  s.resetReleased_step.trans (s.resetReturned_spec.step.trans s.resetReturned_last)

theorem State.resetChecked_rest (s : State) :
    s.resetChecked.store = s.resetReturned.store ∧ s.resetChecked.map.tubes = s.resetReturned.map.tubes := by
  unfold State.resetChecked
  split
  · rw [State.armCompletion_frame]; exact ⟨rfl, rfl⟩
  · exact ⟨rfl, rfl⟩

theorem State.resetPart_tube (s : State) (i : Nat) : s.resetPart.tube i = s.resetReturned.tube i := by
  unfold State.tube
  rw [State.resetPart_eq, State.judgePool_frame]
  exact congrArg (fun l : List Tube => l[i]?) s.resetChecked_rest.2

theorem State.resetWarned_free (s : State) : s.resetWarned.store.free = s.store.free ∧
    s.resetWarned.map.params = s.map.params :=
  ⟨(congrArg Store.free s.resetChecked_rest.1).trans
      (s.resetReturned_spec.free.trans (congrArg Store.free s.resetReleased_store)),
    (s.resetReleased_step.trans (s.resetReturned_spec.step.trans (s.resetChecked_step.trans s.resetWarned_step))).params⟩

/-- The pool as the reset leaves it. -/
theorem State.resetPart_store (s : State) : s.resetPart.store = { s.resetReturned.store with
    warnArmed := decide (s.map.params.poolLevel < s.store.free.count) } := by
  have harmed := s.resetWarned.judgePool_armed
  rw [s.resetWarned_free.1, s.resetWarned_free.2] at harmed
  rw [State.resetPart_eq, State.judgePool_frame, harmed]
  exact congrArg (fun st : Store => { st with
    warnArmed := decide (s.map.params.poolLevel < s.store.free.count) }) s.resetChecked_rest.1

theorem State.resetPart_entry (s : State) (n : Nat) :
    s.resetPart.store.entry n = (s.store.entry n).map Entry.afterReset := by
  have hspec := s.resetReturned_spec
  rw [State.resetPart_store]
  refine Eq.trans (show _ = s.resetReturned.store.entry n from rfl) ?_
  rw [← s.resetReleased_store]
  by_cases hn : n ∈ s.resetReleased.store.inUse
  · exact hspec.listed n hn
  · rw [hspec.unlisted n hn]
    cases he : s.resetReleased.store.entry n with
    | none => rfl
    | some e => exact absurd (Store.mem_inUse he) hn

/-- An entry RESOLVING at the reset is one of those returned. -/
theorem State.resolvingIn_reset {s : State} {n : Nat} {e : Entry} (he : s.store.entry n = some e)
    (hr : e.status = .resolving) : s.resetReleased.resolvingIn s.resetReleased.store.inUse n e := by
  have h : s.resetReleased.store.entry n = some e := s.resetReleased_store ▸ he
  exact ⟨Store.mem_inUse h, h, hr⟩

theorem State.resolvingIn_before {s : State} {l : List Nat} {n : Nat} {e : Entry}
    (h : s.resetReleased.resolvingIn l n e) : s.store.entry n = some e ∧ e.status = .resolving := by
  obtain ⟨-, he, hr⟩ := h
  exact ⟨s.resetReleased_store ▸ he, hr⟩

theorem State.resetReleased_unclaimed {s : State} {i : Nat}
    (h : ∀ (n : Fin 8) (k : Claim), (s.chan n).claim = some k → k.tube ≠ i) : s.resetReleased.tube i = s.tube i :=
  State.releases_unclaimed _ (Eight.forall_toList h) s.resetBlocks

/-- Without a RESOLVING entry the return of the entries does nothing. -/
theorem State.resetReturned_idle {s : State} (h : ∀ n e, s.store.entry n = some e → e.status ≠ .resolving) :
    s.resetReturned = s.resetReleased := by
  have hfold : ∀ l : List Nat, l.foldl State.returnIfResolving s.resetReleased = s.resetReleased := by
    intro l
    induction l with
    | nil => rfl
    | cons n t ih =>
      rw [List.foldl_cons, State.returnIfResolving_other fun e he => h n e (s.resetReleased_store ▸ he)]
      exact ih
  exact hfold _

/-! ## The end of a reset (R64) -/

theorem exec_resetEnd {s : State} (h : s.held = true) : exec .resetEnd s = .next s.resetEnd :=
  congrArg Host.Outcome.next (if_pos h)

theorem State.sendCancel_none {s : State} {n : Fin 8} (h : s.cancels.get n = none) : s.sendCancel n = s := by
  unfold State.sendCancel
  rw [h]

theorem State.sendCancel_some {s : State} {n : Fin 8} {e : Echo} (h : s.cancels.get n = some e) :
    s.sendCancel n = { s with txs := s.txs.set n ((s.txs.get n).enqueue { kind := .cancel, echo := e }) } := by
  unfold State.sendCancel
  rw [h]
  rfl

theorem State.sendCancel_frame (s : State) (n : Fin 8) : s.sendCancel n = { s with txs := (s.sendCancel n).txs } := by
  cases h : s.cancels.get n with
  | none => rw [State.sendCancel_none h]
  | some e => rw [State.sendCancel_some h]

/-- What a CANCEL at the end of a reset reads and writes: the kept echo and the transmitter of the channel. -/
def State.atCancel (s : State) (n : Fin 8) : Option Echo × Transmitter := (s.cancels.get n, s.txs.get n)

theorem State.sendCancel_atCancel (s : State) (k n : Fin 8) (h : k ≠ n) : (s.sendCancel k).atCancel n = s.atCancel n := by
  cases hc : s.cancels.get k with
  | none => rw [State.sendCancel_none hc]
  | some e =>
    rw [State.sendCancel_some hc]
    exact congrArg (Prod.mk _) ((Eight.get_set _ _ _ _).trans (if_neg h))

theorem State.sendCancels_frame (l : List (Fin 8)) : ∀ s : State,
    l.foldl State.sendCancel s = { s with txs := (l.foldl State.sendCancel s).txs } := by
  induction l with
  | nil => exact fun s => rfl
  | cons n t ih =>
    intro s
    rw [List.foldl_cons, ih, State.sendCancel_frame]

/-- Each transmitter with the CANCEL of its channel's kept echo behind its messages. -/
theorem State.sendCancels_tx (s : State) (n : Fin 8) :
    (s.cancels.get n = none → (eightNumbers.foldl State.sendCancel s).txs.get n = s.txs.get n) ∧
    ∀ e, s.cancels.get n = some e → (eightNumbers.foldl State.sendCancel s).txs.get n =
      (s.txs.get n).enqueue { kind := .cancel, echo := e } := by
  obtain ⟨u, hu, hv⟩ := State.forEach_local State.atCancel State.sendCancel_atCancel s n
  obtain ⟨hcancel, htx⟩ := Prod.mk.inj hu
  have hfinal : (eightNumbers.foldl State.sendCancel s).txs.get n = (u.sendCancel n).txs.get n := congrArg Prod.snd hv
  rw [hfinal, ← hcancel, ← htx]
  refine ⟨fun h => by rw [State.sendCancel_none h], fun e h => ?_⟩
  rw [State.sendCancel_some h]
  exact (Eight.get_set _ _ _ _).trans (if_pos rfl)

/-! ## The claims at RESET# and the messages at its end (O6) -/

/-- Settles O6: the release of the one claim, and the CANCEL at the end of the reset. -/
theorem resetReleasesClaims : Obligations.ResetReleasesClaims := by
  unfold Obligations.ResetReleasesClaims
  refine ⟨fun s n k u hh hk hu hone hno => ⟨_, exec_reset hh, ?_⟩, fun s hh => ⟨_, exec_resetEnd hh, ?_, s.sendCancels_tx⟩⟩
  · obtain ⟨htube, hwatched⟩ := State.releases_claimed s.resetBlocks_dormant s.chans hk hone
    have hfinal : s.resetPart.tube k.tube = some (u.releaseTo k.prior) := by
      rw [State.resetPart_tube, State.resetReturned_idle hno]
      exact htube.trans (congrArg (Option.map _) hu)
    refine ⟨fun hs => hfinal.trans (congrArg some (Tube.releaseTo_claimed hs k.prior)),
      fun hs => hfinal.trans (congrArg some (Tube.releaseTo_inTest hs k.prior)), fun hmoves => ?_⟩
    exact State.watched_later (hwatched u hu (Tube.releaseTo_moves hmoves).1) (s.resetReturned_spec.step.trans s.resetReturned_last).kept
  · exact congrArg (fun x : State => { x with held := false, cancels := Eight.fill none })
      (State.sendCancels_frame eightNumbers s)

end Sys2Proof.Machine
end

section
/-! RESET# keeps the records (O5): each block, each tube, the notices and the two flags. -/

namespace Sys2Proof.Machine

/-! ## The blocks -/

theorem State.resetPart_chan (s : State) (n : Fin 8) : s.resetPart.chan n = (s.chan n).afterReset := by
  unfold State.chan
  rw [s.resetPart_step.chans]
  exact s.resetBlocks_chan n

theorem State.resetPart_link (s : State) (n : Fin 8) : s.resetPart.link n = (s.link n).restart := by
  rw [s.resetPart_step.frame]
  exact Eight.get_map _ _ _

theorem State.resetPart_tx (s : State) (n : Fin 8) : s.resetPart.txs.get n = Transmitter.quiet := by
  rw [s.resetPart_step.frame]
  exact Eight.get_fill _ _

theorem State.resetPart_cancel (s : State) (n : Fin 8) :
    s.resetPart.cancels.get n = (s.chan n).claim.map Claim.echo := by
  rw [s.resetPart_step.frame]
  exact Eight.get_map _ _ _

theorem State.resetPart_walker (s : State) :
    s.resetPart.walker = { s.walker.abandonAll with cursors := Eight.fill none } := by
  rw [s.resetPart_step.frame]
  rfl

theorem State.resetPart_seat (s : State) (k : Fin 4) : s.resetPart.seats.get k = { held := none, expiry := none } := by
  rw [s.resetPart_step.frame]
  exact Four.get_fill _ _

theorem State.resetPart_settings (s : State) :
    s.resetPart.notices.levels = s.notices.levels ∧ s.resetPart.notices.floor = s.notices.floor :=
  s.resetPart_step.kept _ (NoticeUnit.settings_kept s.notices.levels s.notices.floor) ⟨rfl, rfl⟩

/-! ## The tubes -/

/-- A tube of no released claim and no returned entry. -/
theorem State.resetPart_kept {s : State} {i : Nat}
    (hc : ∀ (n : Fin 8) (k : Claim), (s.chan n).claim = some k → k.tube ≠ i)
    (he : ∀ (n : Nat) (e : Entry), s.store.entry n = some e → e.status = .resolving → e.tube ≠ i) :
    s.resetPart.tube i = s.tube i := by
  rw [State.resetPart_tube, ← State.resetReleased_unclaimed hc]
  refine s.resetReturned_spec.tube i fun n e hn => ?_
  obtain ⟨hne, hr⟩ := State.resolvingIn_before hn
  exact he n e hne hr

theorem State.resetPart_watched {s : State} {n : Nat} {e : Entry} (he : s.store.entry n = some e)
    (hr : e.status = .resolving) : s.watched s.resetPart e.tube :=
  s.resetReleased_step.watched (State.watched_later
    (s.resetReturned_spec.watched n e (State.resolvingIn_reset he hr)) s.resetReturned_last.kept)

theorem State.resetPart_evaluated {s : State} {n : Nat} {e : Entry} (he : s.store.entry n = some e)
    (hr : e.status = .resolving) {u : Tube} (hu : s.tube e.tube = some u)
    (hc : ∀ (m : Fin 8) (k : Claim), (s.chan m).claim = some k → k.tube ≠ e.tube)
    (hlist : ∀ (x : Nat) (f : Entry), s.store.entry x = some f → f.status = .resolving →
      (x ∈ u.entries ↔ f.tube = e.tube)) :
    s.resetPart.tube e.tube = some (u.evaluated s.map.params.plugLimit s.resetPart.store) := by
  have hfirst := s.resetReturned_spec.evaluated n e u (State.resolvingIn_reset he hr)
    ((State.resetReleased_unclaimed hc).trans hu) (by rw [s.resetReleased_store]; exact hlist)
  rw [State.resetPart_tube, hfirst, s.resetReleased_step.params]
  refine congrArg some (Tube.evaluated_congr fun x _ => ?_)
  rw [State.resetPart_store]
  rfl

/-! ## The notices and the flags -/

theorem State.resetPart_warned (s : State) : s.resetPart.notices =
    if s.store.free.count ≤ s.map.params.poolLevel then s.resetChecked.notices.post .pool 0
    else s.resetChecked.notices := by
  obtain ⟨hfree, hparams⟩ := s.resetWarned_free
  rw [State.resetPart_eq, State.judgePool_warned rfl, hfree, hparams]
  rfl

theorem State.resetPart_told {s : State} (h : s.resetPart.store.warnArmed = false) : s.resetPart.notices.told .pool 0 := by
  rw [State.resetPart_eq] at h ⊢
  exact State.judgePool_told _ rfl h

theorem State.resetPart_map (s : State) : s.resetPart.map = s.resetChecked.map := by
  rw [State.resetPart_eq, State.judgePool_frame]
  rfl

theorem State.resetReturned_phase (s : State) : s.resetReturned.map.phase = s.map.phase := by
  rw [(s.resetReleased_step.trans s.resetReturned_spec.step).frame]
  rfl

/-- In ACTIVE the completion check is armed and applied. -/
theorem State.resetPart_armed {s : State} (ha : s.map.phase = .active) :
    s.resetPart.map.armed =
      !decide (s.resetPart.map.census.plannedOpen = 0 ∧ 0 < s.resetPart.map.census.planned) ∧
    (s.resetPart.map.armed = false → s.resetPart.notices.told .campaignComplete 0) := by
  have hchecked : s.resetChecked = s.resetReturned.armCompletion := if_pos (s.resetReturned_phase.trans ha)
  have harm := State.armCompletion_eq (s.resetReturned_phase.trans ha) rfl
  rw [State.resetPart_map, hchecked, harm]
  refine ⟨rfl, fun hd => ?_⟩
  have hkept := (s.resetWarned_step.trans s.resetWarned.judgePool_resetStep).kept
  refine told_of_kept (s := s.resetChecked) hkept ?_
  rw [hchecked, harm]
  dsimp only at hd ⊢
  rw [Bool.not_eq_false'] at hd
  rw [if_pos hd]
  exact NoticeUnit.post_told _ _ _

/-- Without a claim and without a RESOLVING entry the reset posts what the two checks post alone. -/
theorem State.resetChecked_idle {s : State} (hc : ∀ n : Fin 8, (s.chan n).claim = none)
    (he : ∀ (n : Nat) (e : Entry), s.store.entry n = some e → e.status ≠ .resolving) : s.resetChecked.notices =
      if s.map.phase = .active ∧ s.map.census.plannedOpen = 0 ∧ 0 < s.map.census.planned then
        s.notices.emptied.post .campaignComplete 0 else s.notices.emptied := by
  have hreleased : s.resetReturned = s.resetBlocks :=
    (State.resetReturned_idle he).trans (State.releases_idle _ (Eight.forall_toList hc))
  unfold State.resetChecked
  rw [hreleased, show s.resetBlocks.map.phase = s.map.phase from rfl]
  by_cases ha : s.map.phase = .active
  · rw [if_pos ha, State.armCompletion_eq (s := s.resetBlocks) ha rfl]
    simp only [ha, true_and, decide_eq_true_eq]
    rfl
  · rw [if_neg ha, if_neg fun h => ha h.1]
    rfl

/-- Settles O5, by the reset's steps: the blocks, the releases, the returns and the two checks. -/
theorem resetKeepsRecords : Obligations.ResetKeepsRecords := by
  unfold Obligations.ResetKeepsRecords
  intro s hh _
  have hstep := s.resetPart_step
  have hframe := hstep.frame
  obtain ⟨hlevels, hfloor⟩ := s.resetPart_settings
  refine ⟨_, exec_reset hh, ?held, ?pending, ?freqs, fun n => ?channel, ?keepouts, ?clearance, ?seek, fun k => ?seats,
    ?engine, ?hand, ?interlock, ?mode, ?received, ?work, ?response, ?overrun, hlevels, hfloor, ?directory, ?params,
    ?landmarks, ?phase, ?campaign, ?watches, hstep.count, fun i u v hu hv => ?record,
    fun i u hu hc he => (State.resetPart_kept hc he).trans hu,
    fun n e he hr => ⟨State.resetPart_watched he hr, fun u hu hc hl => State.resetPart_evaluated he hr hu hc hl⟩,
    fun m hm => ?posts, fun hc he u v hu hv => ?exactly, hstep.armed, State.resetPart_armed, ?warnArmed,
    State.resetPart_told, ?free, fun n => ⟨?issue, s.resetPart_entry n⟩⟩
  case channel =>
    rw [State.resetPart_chan, State.resetPart_link, State.resetPart_tx, State.resetPart_walker]
    exact ⟨rfl, rfl, rfl, rfl, rfl, rfl, rfl, rfl, rfl, rfl, rfl, rfl, rfl, s.resetPart_cancel n, Eight.get_fill _ _,
      Eight.get_fill _ _, rfl, rfl, rfl, rfl, rfl, rfl, rfl, rfl, rfl, rfl, rfl, rfl, rfl⟩
  case seats => rw [State.resetPart_seat]; exact ⟨rfl, rfl⟩
  case record =>
    have hrec := hstep.record i
    rw [hv, show s.resetBlocks.tube i = some u from hu] at hrec
    exact Tube.lasting_eq (Option.some.inj hrec)
  case posts =>
    have hin : m.cls ∈ resetNotices := (hstep.posts m hm).resolve_left List.not_mem_nil
    simpa [resetNotices] using hin
  case exactly =>
    subst hv hu
    rw [State.resetPart_warned, State.resetChecked_idle hc he]
    rfl
  case warnArmed => rw [State.resetPart_store]
  case free =>
    rw [State.resetPart_store]
    exact s.resetReturned_spec.free.trans (congrArg Store.free s.resetReleased_store)
  case issue =>
    rw [State.resetPart_store]
    exact (s.resetReturned_spec.issue n).trans (by rw [s.resetReleased_store])
  all_goals
    rw [hframe]
    rfl

end Sys2Proof.Machine
end
